-- ==== Sys2Proof/Word.lean ====
section
/-! DEFINITION. The widths of the engine's values (00_scope.md R6, 30_encoding.md R46) and the three formats that carry
the code of an operation or of a ROM entry (30_encoding.md R46, R49, R54; spec/opcode_table.json). -/

namespace Sys2Proof

/-- Format POS: a position, 16 bits, two's complement (R47). -/
abbrev Position := BitVec 16

/-- Format DLY: a delay or a count of delay units, 16 bits, unsigned (R48). -/
abbrev Delay := BitVec 16

/-- The count of sequence cycles, 16 bits, unsigned (R6 CYC_W, R18). -/
abbrev CycleCount := BitVec 16

/-- Format PAT: a coil pattern; bit k drives coil line k (R52). -/
abbrev Pattern := BitVec 8

/-- The index of an entry within a sequence cycle (R19). -/
abbrev EntryIndex := BitVec 3

/-- The direction flag: 0 clockwise, 1 counter-clockwise (R17). -/
abbrev Direction := BitVec 1

/-- Format RA: the ROM address, `dir` above `idx` (R49). -/
abbrev RomAddress := BitVec 4

/-- The six operations the phase register can select (10_state.md R22). Codes 6 and 7 do not exist here (R55). -/
inductive Phase
  | snap
  | dispatch
  | emit
  | hold
  | next
  | commit
deriving DecidableEq, Repr

/-- What carries a code of the opcode table: the phase register, the `rst` input, or the ROM address. -/
inductive Format
  | phase
  | rst
  | rom
deriving DecidableEq, Repr

/-- The width in bits of a format (R46 PHASE and RA; `rst` is one wire, R26). -/
def Format.width : Format → Nat
  | .phase => 3
  | .rst => 1
  | .rom => 4

/-- A raw code: the bits one carrier shows. The three carriers are three number spaces, so a code names its carrier. -/
structure Code where
  format : Format
  bits : Nat
deriving DecidableEq, Repr

end Sys2Proof
end

