-- ==== Sys2Proof/Syntax.lean ====
section
/-! DEFINITION. The syntax: one constructor per row of spec/opcode_table.json. No row has an operand field. -/

namespace Sys2Proof

/-- The rows of the opcode table: the six operations (30_encoding.md R54), reset (70_reset_and_hazards.md R105) and the sixteen
entries of the sequence ROM (30_encoding.md R50, R51). -/
inductive Instr
  /-- SNAP (R60): take the snapshot of the two input ports. -/
  | snap
  /-- DISPATCH (R61): form delta; start a move or skip it. -/
  | dispatch
  /-- EMIT (R71): write the current ROM entry to the coil output, load the timer. -/
  | emit
  /-- HOLD (R81): count one clock of the hold. -/
  | hold
  /-- NEXT (R73): advance the entry index and the cycle count. -/
  | next
  /-- COMMIT (R63): Previous Position takes the snapshot position. -/
  | commit
  /-- RESET (R105): every register takes its reset value. -/
  | reset
  /-- ROM entry at address 0x0: pattern 0x01 (R50). -/
  | cw0
  /-- ROM entry at address 0x1: pattern 0x03 (R50). -/
  | cw1
  /-- ROM entry at address 0x2: pattern 0x02 (R50). -/
  | cw2
  /-- ROM entry at address 0x3: pattern 0x06 (R50). -/
  | cw3
  /-- ROM entry at address 0x4: pattern 0x04 (R50). -/
  | cw4
  /-- ROM entry at address 0x5: pattern 0x0C (R50). -/
  | cw5
  /-- ROM entry at address 0x6: pattern 0x08 (R50). -/
  | cw6
  /-- ROM entry at address 0x7: pattern 0x09 (R50). -/
  | cw7
  /-- ROM entry at address 0x8: pattern 0x09 (R51). -/
  | ccw0
  /-- ROM entry at address 0x9: pattern 0x08 (R51). -/
  | ccw1
  /-- ROM entry at address 0xA: pattern 0x0C (R51). -/
  | ccw2
  /-- ROM entry at address 0xB: pattern 0x04 (R51). -/
  | ccw3
  /-- ROM entry at address 0xC: pattern 0x06 (R51). -/
  | ccw4
  /-- ROM entry at address 0xD: pattern 0x02 (R51). -/
  | ccw5
  /-- ROM entry at address 0xE: pattern 0x03 (R51). -/
  | ccw6
  /-- ROM entry at address 0xF: pattern 0x01 (R51). -/
  | ccw7
deriving DecidableEq, Repr

end Sys2Proof
end

