-- ==== Sys2Proof/WellFormed.lean ====
section
/-! DEFINITION. Well-formedness: of an instruction (nothing to check, no row has an operand) and of a raw code (it fits its
carrier and names something). -/

namespace Sys2Proof

/-- Every row of the table has an empty field list, so there is no operand that could be ill-formed. -/
def Instr.wellFormed : Instr → Bool
  | .snap | .dispatch | .emit | .hold | .next | .commit | .reset => true
  | .cw0 | .cw1 | .cw2 | .cw3 | .cw4 | .cw5 | .cw6 | .cw7 => true
  | .ccw0 | .ccw1 | .ccw2 | .ccw3 | .ccw4 | .ccw5 | .ccw6 | .ccw7 => true

/-- The code fits the width of its carrier (30_encoding.md R46). -/
def Code.fits (c : Code) : Bool := c.bits < 2 ^ c.format.width

/-- The code is not one of the codes that name nothing: PHASE 6 and 7 (R55) and `rst = 0` (R26). -/
def Code.named (c : Code) : Bool :=
  match c.format with
  | .phase => c.bits != 6 && c.bits != 7
  | .rst => c.bits != 0
  | .rom => true

/-- A code of the table: it fits and it is named. -/
def Code.wellFormed (c : Code) : Bool := c.fits && c.named

end Sys2Proof
end

