-- ==== Sys2Proof/Decode.lean ====
section
/-! DEFINITION. Decoding and encoding of the table's codes: PHASE (30_encoding.md R54, R55), RST (R26, R105), ROM (R40, R49).
Decoding is total and rejects by name. -/

namespace Sys2Proof

/-- Why a code names nothing. -/
inductive Reject
  /-- The carrier has fewer bits than the code needs (R46). -/
  | tooWide
  /-- PHASE codes 6 and 7 name no operation (R55). -/
  | unusedPhaseCode
  /-- `rst = 0` requests no reset: the phase register selects the operation (R54). -/
  | noResetRequested
deriving DecidableEq, Repr

/-- What decoding a code answers. -/
inductive Decoded
  | ok (i : Instr)
  | rejected (r : Reject)
deriving DecidableEq, Repr

/-- The map of the phase codes (R54); 6 and 7 are unused (R55). -/
def decodePhase : Nat → Decoded
  | 0 => .ok .snap
  | 1 => .ok .dispatch
  | 2 => .ok .emit
  | 3 => .ok .hold
  | 4 => .ok .next
  | 5 => .ok .commit
  | 6 => .rejected .unusedPhaseCode
  | 7 => .rejected .unusedPhaseCode
  | _ => .rejected .tooWide

/-- The `rst` input: 1 requests the reset operation (R26). -/
def decodeRst : Nat → Decoded
  | 0 => .rejected .noResetRequested
  | 1 => .ok .reset
  | _ => .rejected .tooWide

/-- The address map of the sequence ROM (R40): every one of the sixteen addresses is populated (R36). -/
def decodeRom : Nat → Decoded
  | 0x0 => .ok .cw0
  | 0x1 => .ok .cw1
  | 0x2 => .ok .cw2
  | 0x3 => .ok .cw3
  | 0x4 => .ok .cw4
  | 0x5 => .ok .cw5
  | 0x6 => .ok .cw6
  | 0x7 => .ok .cw7
  | 0x8 => .ok .ccw0
  | 0x9 => .ok .ccw1
  | 0xA => .ok .ccw2
  | 0xB => .ok .ccw3
  | 0xC => .ok .ccw4
  | 0xD => .ok .ccw5
  | 0xE => .ok .ccw6
  | 0xF => .ok .ccw7
  | _ => .rejected .tooWide

/-- The row of the opcode table that a code names, or why it names none. -/
def decode (c : Code) : Decoded :=
  match c.format with
  | .phase => decodePhase c.bits
  | .rst => decodeRst c.bits
  | .rom => decodeRom c.bits

/-- The code of a row, from the spec's tables: R54 for the operations, R26 for reset, R40 for the ROM entries. -/
def encode : Instr → Code
  | .snap => ⟨.phase, 0⟩
  | .dispatch => ⟨.phase, 1⟩
  | .emit => ⟨.phase, 2⟩
  | .hold => ⟨.phase, 3⟩
  | .next => ⟨.phase, 4⟩
  | .commit => ⟨.phase, 5⟩
  | .reset => ⟨.rst, 1⟩
  | .cw0 => ⟨.rom, 0x0⟩
  | .cw1 => ⟨.rom, 0x1⟩
  | .cw2 => ⟨.rom, 0x2⟩
  | .cw3 => ⟨.rom, 0x3⟩
  | .cw4 => ⟨.rom, 0x4⟩
  | .cw5 => ⟨.rom, 0x5⟩
  | .cw6 => ⟨.rom, 0x6⟩
  | .cw7 => ⟨.rom, 0x7⟩
  | .ccw0 => ⟨.rom, 0x8⟩
  | .ccw1 => ⟨.rom, 0x9⟩
  | .ccw2 => ⟨.rom, 0xA⟩
  | .ccw3 => ⟨.rom, 0xB⟩
  | .ccw4 => ⟨.rom, 0xC⟩
  | .ccw5 => ⟨.rom, 0xD⟩
  | .ccw6 => ⟨.rom, 0xE⟩
  | .ccw7 => ⟨.rom, 0xF⟩

/-- The operation a phase selects (R22). -/
def Phase.instr : Phase → Instr
  | .snap => .snap
  | .dispatch => .dispatch
  | .emit => .emit
  | .hold => .hold
  | .next => .next
  | .commit => .commit

/-- The code the phase register shows (R22). -/
def Phase.code : Phase → Code
  | .snap => ⟨.phase, 0⟩
  | .dispatch => ⟨.phase, 1⟩
  | .emit => ⟨.phase, 2⟩
  | .hold => ⟨.phase, 3⟩
  | .next => ⟨.phase, 4⟩
  | .commit => ⟨.phase, 5⟩

/-- Which carrier a table word of nbits bits is read from. DESIGN CHOICE, log 6: the table numbers three carriers from 0 and
a word does not say which is meant. The exact widths 1, 3 and 4 name one carrier each; at a whole number of bytes the six
operation codes are read as PHASE and every other number as a ROM address. -/
def tableCode (nbits w : Nat) : Code :=
  if nbits = 1 then ⟨.rst, w⟩
  else if nbits = 3 then ⟨.phase, w⟩
  else if nbits = 4 then ⟨.rom, w⟩
  else if w < 6 then ⟨.phase, w⟩
  else ⟨.rom, w⟩

/-- The instruction the decoder reads from a word of the opcode table, none where it rejects it. -/
def decodeTableWord (nbits w : Nat) : Option Instr :=
  match decode (tableCode nbits w) with
  | .ok i => some i
  | .rejected _ => none

end Sys2Proof
end

