-- ==== Sys2Proof/Config.lean ====
section
/-! DEFINITION. The constants of the hardware (00_scope.md R6) and the values the spec leaves open: the clock rate and the
input ports. The open ones are opaque, so no proof can use a particular value of them. -/

namespace Sys2Proof.Config

/-- US_PER_UNIT: microseconds per delay unit (R6). -/
def usPerUnit : Nat := 10

/-- CLKS_PER_US less one: the OPEN parameter is an integer at least 1 (R6, decision D3), so it is this constant plus 1.
Only State.reset reads it; see log 3. -/
opaque clksPerUsLessOne : Nat

/-- FREE VALUE: what the environment drives on `rst` in clock k, where State lists nothing for that clock (R5, R111 E1''). See log 1. -/
opaque freeRst : Nat → Bool

/-- FREE VALUE: what the environment drives on `target_position` in clock k (R5, R111 E1). See log 1. -/
opaque freeTargetPosition : Nat → Position

/-- FREE VALUE: what the environment drives on `delay` in clock k (R5, R111 E1'). See log 1. -/
opaque freeDelay : Nat → Delay

end Sys2Proof.Config
end

