-- ==== Sys2Proof/Machine/State.lean ====
section
/-! DEFINITION. The state of the machine: the ten registers of 10_state.md R13, the input ports (R25, R26) of this clock and
of the clocks to come, the number of the clock, and the spec's open parameter. Reset values: R30. -/

namespace Sys2Proof.Machine

/-- The values on the input ports during one clock (10_state.md R25, R26). Each is a whole value: the model cannot say that
half of a port has changed, only that the port carries another number (R111 E2, R114). -/
structure Ports where
  rst : Bool
  targetPosition : Position
  delay : Delay
deriving DecidableEq, Repr

/-- The machine. Registers are named as the spec names them. -/
structure State where
  /-- `phase` (R22). -/
  phase : Phase
  /-- `prev_position` (R14). -/
  prevPosition : Position
  /-- `snap_position` (R15). -/
  snapPosition : Position
  /-- `snap_delay` (R16). -/
  snapDelay : Delay
  /-- `dir` (R17). -/
  dir : Direction
  /-- `cycles_left` (R18). -/
  cyclesLeft : CycleCount
  /-- `idx` (R19). -/
  idx : EntryIndex
  /-- `units_left` (R20). -/
  unitsLeft : Delay
  /-- `sub_cnt` (R21). Its width SUB_W depends on the open parameter, so it is a number, kept below 2^SUB_W (log 4). -/
  subCnt : Nat
  /-- `coil_out` (R24). -/
  coilOut : Pattern
  /-- The input ports during the current clock (R7: i_k). -/
  ports : Ports
  /-- MODEL FIELD, log 1: the input ports in the clocks to come, next clock first. -/
  coming : List Ports
  /-- MODEL FIELD, log 1: the number of the current clock (R7), which selects the free input values. -/
  clock : Nat
  /-- MODEL FIELD, log 3: the open parameter CLKS_PER_US (R6), an argument of the model. No step changes it. -/
  clksPerUs : Nat
deriving DecidableEq, Repr

/-- No fault exists: no operation raises an exception and nothing stops the engine (60_exceptions.md R90, R102; log 9). -/
inductive Fault
deriving DecidableEq, Repr

/-- Why a step has no meaning. -/
inductive Refusal
  /-- Raised by an arm of exec for an instruction the model gives no meaning yet; safe. No arm raises it in this model. -/
  | notModelled (mnemonic : String)
deriving DecidableEq, Repr

/-- The state right after reset (10_state.md R30, 70_reset_and_hazards.md R105, R106). The ten registers are the spec's. The
ports hold the values the environment owes at start (R109 item 2) and `rst = 0` (R57), DESIGN CHOICE, log 2. -/
def State.reset : State where
  phase := .snap
  prevPosition := 0x0000#16
  snapPosition := 0x0000#16
  snapDelay := 0x0000#16
  dir := 0#1
  cyclesLeft := 0x0000#16
  idx := 0#3
  unitsLeft := 0x0000#16
  subCnt := 0
  coilOut := 0x00#8
  ports := { rst := false, targetPosition := 0x0000#16, delay := 0x0000#16 }
  coming := []
  clock := 0
  clksPerUs := Config.clksPerUsLessOne + 1

end Sys2Proof.Machine
end

