-- ==== Sys2Proof/Machine/Operands.lean ====
section
/-! DEFINITION. Operand assembly (30_encoding.md R53): delta, the ROM address, the sequence ROM itself (20_memory.md R32, R40),
and the lengths of the delay timer (00_scope.md R6, 42_delay_timer.md R82). -/

namespace Sys2Proof.Machine

/-- `delta = int(snap_position) - int(prev_position)`, the exact integer (40_snapshot_delta.md R61, R62). -/
def deltaOf (snap prev : Position) : Int := snap.toInt - prev.toInt

/-- The same difference as the hardware forms it: 17-bit two's complement of the sign-extended positions (R53, R62). -/
def delta17 (snap prev : Position) : BitVec 17 := snap.signExtend 17 - prev.signExtend 17

/-- `abs(delta)` as a 16-bit unsigned number (R53); it fits, because `abs(delta) <= 65535`. -/
def cyclesOf (delta : Int) : CycleCount := BitVec.ofNat 16 delta.natAbs

/-- The direction of a delta that is not zero: 1 when it is negative, else 0 (R17, R61). -/
def directionOf (delta : Int) : Direction := if delta < 0 then 1#1 else 0#1

/-- The ROM address `a = {dir, idx}` (R49). -/
def romAddress (dir : Direction) (idx : EntryIndex) : RomAddress := dir ++ idx

/-- The contents of the sequence ROM, addresses 0x0 to 0xF (20_memory.md R40; 30_encoding.md R50, R51). -/
def romTable : Vector Pattern 16 :=
  #v[0x01#8, 0x03#8, 0x02#8, 0x06#8, 0x04#8, 0x0C#8, 0x08#8, 0x09#8,
     0x09#8, 0x08#8, 0x0C#8, 0x04#8, 0x06#8, 0x02#8, 0x03#8, 0x01#8]

/-- `ROM[a]`: combinational read, no side effect, every address populated (20_memory.md R32, R33, R36). -/
def romRead (a : RomAddress) : Pattern := romTable[a.toNat]

/-- UNIT_CLKS = US_PER_UNIT * CLKS_PER_US, clocks per delay unit (R6, R82). -/
def unitClks (clksPerUs : Nat) : Nat := Config.usPerUnit * clksPerUs

/-- SUB_W: the smallest w with 2^w >= UNIT_CLKS (R6), 4 when UNIT_CLKS is 10. -/
def subWidth (units : Nat) : Nat := Nat.log2 (units - 1) + 1

/-- `sub_cnt + 1` on a register of SUB_W bits (R81, R21). -/
def subCntPlusOne (clksPerUs subCnt : Nat) : Nat := (subCnt + 1) % 2 ^ subWidth (unitClks clksPerUs)

/-- The delta of the current snapshot (R61). -/
def State.delta (s : State) : Int := deltaOf s.snapPosition s.prevPosition

/-- The entry EMIT reads: the output mux of 41_sequencer.md R72, as the flat ROM at `{dir, idx}`. -/
def State.currentEntry (s : State) : Pattern := romRead (romAddress s.dir s.idx)

end Sys2Proof.Machine
end

