-- ==== Sys2Proof/Machine/Flags.lean ====
section
/-! DEFINITION. The conditions the operations test (10_state.md R28). None is stored; the one stored flag is `dir`. -/

namespace Sys2Proof.Machine

/-- DISPATCH: `delta = 0`, skip the move. -/
def State.deltaIsZero (s : State) : Bool := s.delta == 0

/-- EMIT: `snap_delay = 0`, no hold follows. -/
def State.delayIsZero (s : State) : Bool := s.snapDelay == 0#16

/-- HOLD: `sub_cnt = UNIT_CLKS - 1`, a delay unit ends with this clock. -/
def State.unitEnds (s : State) : Bool := s.subCnt == unitClks s.clksPerUs - 1

/-- HOLD: `units_left = 1`, tested before the decrement. -/
def State.lastUnit (s : State) : Bool := s.unitsLeft == 1#16

/-- NEXT: `idx = 7`, the eighth entry of a sequence cycle. -/
def State.lastEntry (s : State) : Bool := s.idx == 7#3

/-- NEXT: `cycles_left = 1`, tested before the decrement. -/
def State.lastCycle (s : State) : Bool := s.cyclesLeft == 1#16

end Sys2Proof.Machine
end

