-- ==== Sys2Proof/Machine/Ops.lean ====
section
/-! DEFINITION. The named operations over the registers and the input ports that the meanings are built from. Each register
is written by one of these and by nothing else (10_state.md R13). The spec has no exception entry and no return
(60_exceptions.md R94, R95), so there is none here. -/

namespace Sys2Proof.Machine

/-- `phase <- P`. -/
def State.setPhase (s : State) (p : Phase) : State := { s with phase := p }

/-- Latch the snapshot pair at one edge (20_memory.md R38). -/
def State.setSnapshot (s : State) (p : Position) (d : Delay) : State := { s with snapPosition := p, snapDelay := d }

/-- Write Previous Position. -/
def State.setPrevPosition (s : State) (p : Position) : State := { s with prevPosition := p }

/-- Write the direction flag. -/
def State.setDir (s : State) (d : Direction) : State := { s with dir := d }

/-- Write the coil-pattern counter: the entry index and the count of sequence cycles. -/
def State.setCounter (s : State) (i : EntryIndex) (n : CycleCount) : State := { s with idx := i, cyclesLeft := n }

/-- Write the delay timer: `units_left` and `sub_cnt`. -/
def State.setTimer (s : State) (u : Delay) (c : Nat) : State := { s with unitsLeft := u, subCnt := c }

/-- Write all eight bits of the coil output at one edge (20_memory.md R39). -/
def State.setCoil (s : State) (v : Pattern) : State := { s with coilOut := v }

/-- Every register takes its reset value (70_reset_and_hazards.md R105). The input ports are no registers and stay. -/
def State.clearRegisters (s : State) : State :=
  { s with
    phase := .snap, prevPosition := 0x0000#16, snapPosition := 0x0000#16, snapDelay := 0x0000#16, dir := 0#1,
    cyclesLeft := 0x0000#16, idx := 0#3, unitsLeft := 0x0000#16, subCnt := 0, coilOut := 0x00#8 }

/-- A coil write of pattern v: the coil output, the timer loaded from the snapshotted delay, and the phase that follows
(41_sequencer.md R71). EMIT and the sixteen ROM rows share it. -/
def State.coilWrite (s : State) (v : Pattern) : State :=
  ((s.setCoil v).setTimer s.snapDelay 0).setPhase (if s.delayIsZero then .next else .hold)

/-- The free input values of clock k (log 1). -/
def freePorts (k : Nat) : Ports :=
  { rst := Config.freeRst k, targetPosition := Config.freeTargetPosition k, delay := Config.freeDelay k }

/-- The input ports j clocks from now: the current ones, the listed coming ones, then free values (R5, R7; log 1). -/
def State.inputAt (s : State) : Nat → Ports
  | 0 => s.ports
  | j + 1 => s.coming.getD j (freePorts (s.clock + (j + 1)))

/-- Move on to the next clock's input values; the registers stay. -/
def State.nextInputs (s : State) : State :=
  { s with ports := s.inputAt 1, coming := s.coming.tail, clock := s.clock + 1 }

/-- The code that selects this clock's operation: `rst = 1` overrides the phase register (R26, R54). -/
def State.code (s : State) : Code := if s.ports.rst then ⟨.rst, 1⟩ else s.phase.code

/-- This clock's operation: reset when `rst = 1`, else the one the phase register selects (R54, R93 item 1). -/
def State.operation (s : State) : Instr := if s.ports.rst then .reset else s.phase.instr

/-- Drive `rst` in the current clock. -/
def State.setRst (s : State) (r : Bool) : State := { s with ports := { s.ports with rst := r } }

/-- Make ROM address `{d, i}` the one the current clock's EMIT reads. -/
def State.selectEntry (s : State) (d : Direction) (i : EntryIndex) : State :=
  ((({ s with dir := d, idx := i }).setPhase .emit).setRst false)

/-- Make instruction i the one the current clock performs: the phase register for an operation, the `rst` input for reset, the
ROM address (and phase EMIT) for a ROM entry (log 7). -/
def State.select (s : State) : Instr → State
  | .snap => (s.setPhase .snap).setRst false
  | .dispatch => (s.setPhase .dispatch).setRst false
  | .emit => (s.setPhase .emit).setRst false
  | .hold => (s.setPhase .hold).setRst false
  | .next => (s.setPhase .next).setRst false
  | .commit => (s.setPhase .commit).setRst false
  | .reset => s.setRst true
  | .cw0 => s.selectEntry 0#1 0#3
  | .cw1 => s.selectEntry 0#1 1#3
  | .cw2 => s.selectEntry 0#1 2#3
  | .cw3 => s.selectEntry 0#1 3#3
  | .cw4 => s.selectEntry 0#1 4#3
  | .cw5 => s.selectEntry 0#1 5#3
  | .cw6 => s.selectEntry 0#1 6#3
  | .cw7 => s.selectEntry 0#1 7#3
  | .ccw0 => s.selectEntry 1#1 0#3
  | .ccw1 => s.selectEntry 1#1 1#3
  | .ccw2 => s.selectEntry 1#1 2#3
  | .ccw3 => s.selectEntry 1#1 3#3
  | .ccw4 => s.selectEntry 1#1 4#3
  | .ccw5 => s.selectEntry 1#1 5#3
  | .ccw6 => s.selectEntry 1#1 6#3
  | .ccw7 => s.selectEntry 1#1 7#3

/-- Place a code on its carrier; a code that names nothing changes nothing. -/
def State.placeCode (s : State) (c : Code) : State :=
  match decode c with
  | .ok i => s.select i
  | .rejected _ => s

end Sys2Proof.Machine
end

