-- ==== Sys2Proof/Machine/Reset.lean ====
section
/-! DEFINITION. RESET (70_reset_and_hazards.md R105). -/

namespace Sys2Proof.Machine

/-- RESET (R105): every register takes its reset value, whatever the phase and the other inputs. -/
def execReset (s : State) : Host.Outcome State Fault Refusal := .next s.clearRegisters

end Sys2Proof.Machine
end

