-- ==== Sys2Proof/Machine/RomEntries.lean ====
section
/-! DEFINITION. The sixteen ROM rows of the opcode table (30_encoding.md R50, R51). A ROM entry is the operand EMIT reads, not an
operation of its own: the meaning of a row is the coil write of 41_sequencer.md R71 with that entry as the value read, which is
what EMIT does when `{dir, idx}` is the row's address (DESIGN CHOICE, log 5). -/

namespace Sys2Proof.Machine

/-- CW0: ROM entry 0x0, pattern 0x01 (R50). -/
def execCw0 (s : State) : Host.Outcome State Fault Refusal := .next (s.coilWrite (romRead 0x0#4))

/-- CW1: ROM entry 0x1, pattern 0x03 (R50). -/
def execCw1 (s : State) : Host.Outcome State Fault Refusal := .next (s.coilWrite (romRead 0x1#4))

/-- CW2: ROM entry 0x2, pattern 0x02 (R50). -/
def execCw2 (s : State) : Host.Outcome State Fault Refusal := .next (s.coilWrite (romRead 0x2#4))

/-- CW3: ROM entry 0x3, pattern 0x06 (R50). -/
def execCw3 (s : State) : Host.Outcome State Fault Refusal := .next (s.coilWrite (romRead 0x3#4))

/-- CW4: ROM entry 0x4, pattern 0x04 (R50). -/
def execCw4 (s : State) : Host.Outcome State Fault Refusal := .next (s.coilWrite (romRead 0x4#4))

/-- CW5: ROM entry 0x5, pattern 0x0C (R50). -/
def execCw5 (s : State) : Host.Outcome State Fault Refusal := .next (s.coilWrite (romRead 0x5#4))

/-- CW6: ROM entry 0x6, pattern 0x08 (R50). -/
def execCw6 (s : State) : Host.Outcome State Fault Refusal := .next (s.coilWrite (romRead 0x6#4))

/-- CW7: ROM entry 0x7, pattern 0x09 (R50). -/
def execCw7 (s : State) : Host.Outcome State Fault Refusal := .next (s.coilWrite (romRead 0x7#4))

/-- CCW0: ROM entry 0x8, pattern 0x09 (R51). -/
def execCcw0 (s : State) : Host.Outcome State Fault Refusal := .next (s.coilWrite (romRead 0x8#4))

/-- CCW1: ROM entry 0x9, pattern 0x08 (R51). -/
def execCcw1 (s : State) : Host.Outcome State Fault Refusal := .next (s.coilWrite (romRead 0x9#4))

/-- CCW2: ROM entry 0xA, pattern 0x0C (R51). -/
def execCcw2 (s : State) : Host.Outcome State Fault Refusal := .next (s.coilWrite (romRead 0xA#4))

/-- CCW3: ROM entry 0xB, pattern 0x04 (R51). -/
def execCcw3 (s : State) : Host.Outcome State Fault Refusal := .next (s.coilWrite (romRead 0xB#4))

/-- CCW4: ROM entry 0xC, pattern 0x06 (R51). -/
def execCcw4 (s : State) : Host.Outcome State Fault Refusal := .next (s.coilWrite (romRead 0xC#4))

/-- CCW5: ROM entry 0xD, pattern 0x02 (R51). -/
def execCcw5 (s : State) : Host.Outcome State Fault Refusal := .next (s.coilWrite (romRead 0xD#4))

/-- CCW6: ROM entry 0xE, pattern 0x03 (R51). -/
def execCcw6 (s : State) : Host.Outcome State Fault Refusal := .next (s.coilWrite (romRead 0xE#4))

/-- CCW7: ROM entry 0xF, pattern 0x01 (R51). -/
def execCcw7 (s : State) : Host.Outcome State Fault Refusal := .next (s.coilWrite (romRead 0xF#4))

end Sys2Proof.Machine
end

