-- ==== Sys2Proof/Machine/Sequencer.lean ====
section
/-! DEFINITION. The coil-pattern counter and the output mux: EMIT, NEXT (41_sequencer.md). -/

namespace Sys2Proof.Machine

/-- EMIT (R71): the entry at `{dir, idx}` goes to the coil output. -/
def execEmit (s : State) : Host.Outcome State Fault Refusal := .next (s.coilWrite s.currentEntry)

/-- NEXT within a sequence cycle (R73, `idx != 7`). -/
def State.nextEntry (s : State) : State := (s.setCounter (s.idx + 1#3) s.cyclesLeft).setPhase .emit

/-- NEXT after the eighth entry (R73, `idx = 7`); the decrement wraps at 16 bits in unreachable states. -/
def State.nextCycle (s : State) : State :=
  (s.setCounter 0#3 (s.cyclesLeft - 1#16)).setPhase (if s.lastCycle then .commit else .emit)

/-- NEXT (R73). -/
def execNext (s : State) : Host.Outcome State Fault Refusal :=
  .next (if s.lastEntry then s.nextCycle else s.nextEntry)

end Sys2Proof.Machine
end

