-- ==== Sys2Proof/Machine/Snapshot.lean ====
section
/-! DEFINITION. The position-delta accumulator: SNAP, DISPATCH, COMMIT (40_snapshot_delta.md). -/

namespace Sys2Proof.Machine

/-- SNAP (R60): both ports are sampled at the same edge. -/
def execSnap (s : State) : Host.Outcome State Fault Refusal :=
  .next ((s.setSnapshot s.ports.targetPosition s.ports.delay).setPhase .dispatch)

/-- Start a move: direction, cycle count and entry index from delta (R61, the branch `delta != 0`). -/
def State.startMove (s : State) : State :=
  ((s.setDir (directionOf s.delta)).setCounter 0#3 (cyclesOf s.delta)).setPhase .emit

/-- DISPATCH (R61): a zero delta skips the move and leaves `dir`, `cycles_left` and `idx` as they are. -/
def execDispatch (s : State) : Host.Outcome State Fault Refusal :=
  .next (if s.deltaIsZero then s.setPhase .commit else s.startMove)

/-- COMMIT (R63): Previous Position takes the snapshot position, in every iteration. -/
def execCommit (s : State) : Host.Outcome State Fault Refusal :=
  .next ((s.setPrevPosition s.snapPosition).setPhase .snap)

end Sys2Proof.Machine
end

