-- ==== Sys2Proof/Machine/Timer.lean ====
section
/-! DEFINITION. The timed pulse generator: HOLD (42_delay_timer.md). -/

namespace Sys2Proof.Machine

/-- The last clock of a delay unit (R81, the else branch); the decrement wraps at 16 bits in unreachable states. -/
def State.completeUnit (s : State) : State :=
  (s.setTimer (s.unitsLeft - 1#16) 0).setPhase (if s.lastUnit then .next else .hold)

/-- Any other clock of a delay unit (R81, the then branch): the phase register keeps its value. -/
def State.countClock (s : State) : State := s.setTimer s.unitsLeft (subCntPlusOne s.clksPerUs s.subCnt)

/-- HOLD (R81). -/
def execHold (s : State) : Host.Outcome State Fault Refusal :=
  .next (if s.unitEnds then s.completeUnit else s.countClock)

end Sys2Proof.Machine
end

