-- ==== Sys2Proof/Machine/Dispatch.lean ====
section
/-! DEFINITION. One arm per constructor of Instr, each one call of its meaning. -/

namespace Sys2Proof.Machine

def exec (i : Instr) (s : State) : Host.Outcome State Fault Refusal :=
  match i with
  | .snap => Sys2Proof.Machine.execSnap s
  | .dispatch => Sys2Proof.Machine.execDispatch s
  | .emit => Sys2Proof.Machine.execEmit s
  | .hold => Sys2Proof.Machine.execHold s
  | .next => Sys2Proof.Machine.execNext s
  | .commit => Sys2Proof.Machine.execCommit s
  | .reset => Sys2Proof.Machine.execReset s
  | .cw0 => Sys2Proof.Machine.execCw0 s
  | .cw1 => Sys2Proof.Machine.execCw1 s
  | .cw2 => Sys2Proof.Machine.execCw2 s
  | .cw3 => Sys2Proof.Machine.execCw3 s
  | .cw4 => Sys2Proof.Machine.execCw4 s
  | .cw5 => Sys2Proof.Machine.execCw5 s
  | .cw6 => Sys2Proof.Machine.execCw6 s
  | .cw7 => Sys2Proof.Machine.execCw7 s
  | .ccw0 => Sys2Proof.Machine.execCcw0 s
  | .ccw1 => Sys2Proof.Machine.execCcw1 s
  | .ccw2 => Sys2Proof.Machine.execCcw2 s
  | .ccw3 => Sys2Proof.Machine.execCcw3 s
  | .ccw4 => Sys2Proof.Machine.execCcw4 s
  | .ccw5 => Sys2Proof.Machine.execCcw5 s
  | .ccw6 => Sys2Proof.Machine.execCcw6 s
  | .ccw7 => Sys2Proof.Machine.execCcw7 s

end Sys2Proof.Machine
end

