-- ==== Sys2Proof/Machine/Step.lean ====
section
/-! DEFINITION. One step is one clock (00_scope.md R7; log 10): the operation this clock selects, then the next clock's input
values. -/

namespace Sys2Proof.Machine

/-- `s_(k+1) = step(s_k, i_k)`, with i_k the ports the state holds. -/
def step (s : State) : Host.Outcome State Fault Refusal :=
  match exec s.operation s with
  | .next t => .next t.nextInputs
  | .fault r => .fault r
  | .refused r => .refused r

/-- The state in which the very next step performs the instruction a table word names (log 6, log 7): nothing is fetched by
this hardware (10_state.md R23), so the word is placed on the register or the input that selects the operation. -/
def State.withFetchWord (s : State) (nbits w : Nat) : State := s.placeCode (tableCode nbits w)

end Sys2Proof.Machine
end

