-- ==== Sys2Proof/Machine/Outputs.lean ====
section
/-! DEFINITION. What an observer outside the engine sees (00_scope.md R10): the output ports and the event each clock carries
(R9). All of it is computed from the state and stored nowhere. -/

namespace Sys2Proof.Machine

/-- The alphabet of the event level (00_scope.md R8). -/
inductive Event
  /-- `Snap(p, d)`: the engine took a snapshot. -/
  | snap (p : Position) (d : Delay)
  /-- `Coil(v)`: the engine set the coil output to v. -/
  | coil (v : Pattern)
  /-- `Unit`: one delay unit elapsed in a hold. -/
  | unit
  /-- `Commit(p)`: Previous Position became p. -/
  | commit (p : Position)
deriving DecidableEq, Repr

/-- Output port `coil_out[7:0]` (10_state.md R24). -/
def State.coilOutPort (s : State) : Pattern := s.coilOut

/-- Output port `prev_position[15:0]` (R14). -/
def State.prevPositionPort (s : State) : Position := s.prevPosition

/-- Strobe `snap_stb` (R27). -/
def State.snapStb (s : State) : Bool := !s.ports.rst && s.phase == .snap

/-- Strobe `coil_stb` (R27). -/
def State.coilStb (s : State) : Bool := !s.ports.rst && s.phase == .emit

/-- Strobe `unit_stb` (R27). -/
def State.unitStb (s : State) : Bool := !s.ports.rst && s.phase == .hold && s.unitEnds

/-- Strobe `commit_stb` (R27). -/
def State.commitStb (s : State) : Bool := !s.ports.rst && s.phase == .commit

/-- The event the current clock carries, none for a silent clock (R9). -/
def State.event (s : State) : Option Event :=
  if s.snapStb then some (.snap s.ports.targetPosition s.ports.delay)
  else if s.coilStb then some (.coil s.currentEntry)
  else if s.unitStb then some .unit
  else if s.commitStb then some (.commit s.snapPosition)
  else none

end Sys2Proof.Machine
end

