-- ==== Sys2Proof/Machine/Run.lean ====
section
/-! DEFINITION. Runs: the state k clocks on, and the event sequence of k clocks with the clock numbers erased (00_scope.md R8). -/

namespace Sys2Proof.Machine

/-- The state one clock on. step answers a next state in every state, so the other two arms are never taken. -/
def State.tick (s : State) : State :=
  match step s with
  | .next t => t
  | .fault _ => s
  | .refused _ => s

/-- The state k clocks on. -/
def State.ticks : Nat → State → State
  | 0, s => s
  | k + 1, s => State.ticks k s.tick

/-- The events of the next k clocks, in order (R9, R8; silent clocks leave nothing). -/
def State.trace : Nat → State → List Event
  | 0, _ => []
  | k + 1, s => s.event.toList ++ State.trace k s.tick

/-- The length of the longest iteration in clocks (42_delay_timer.md R87, 70_reset_and_hazards.md R121). -/
def longestIteration (clksPerUs : Nat) : Nat := 3 + 8 * 65535 * (2 + 65535 * unitClks clksPerUs)

end Sys2Proof.Machine
end

