-- ==== Sys2Proof/Machine/Stimulus.lean ====
section
/-! DEFINITION. The stimulus notation of 30_encoding.md R57, as what it does to the input ports (decision D21: it is no part of
the hardware; log 11). -/

namespace Sys2Proof.Machine

/-- A statement of the notation. -/
inductive Stmt
  /-- `RESET`: one clock with `rst = 1`. -/
  | reset
  /-- `POS n`. -/
  | pos (n : Int)
  /-- `DLY n`. -/
  | dly (n : Nat)
  /-- `RUN k`. -/
  | run (k : Nat)
  /-- `UNTIL COMMIT x m`; `UNTIL COMMIT` is m = 1. -/
  | untilCommit (m : Nat)
deriving DecidableEq, Repr

/-- The ranges of R57: a POS operand is a signed and a DLY operand an unsigned 16-bit number. -/
def Stmt.wellFormed : Stmt → Bool
  | .reset => true
  | .pos n => decide (-32768 ≤ n ∧ n ≤ 32767)
  | .dly n => decide (n ≤ 65535)
  | .run _ => true
  | .untilCommit _ => true

/-- A testbench: the values it holds on the two ports, and the machine it drives. -/
structure Bench where
  target : Position
  delay : Delay
  machine : State
deriving DecidableEq, Repr

/-- The machine with the held port values and the given `rst` in the current clock. -/
def Bench.present (b : Bench) (rst : Bool) : State :=
  { b.machine with ports := { rst := rst, targetPosition := b.target, delay := b.delay } }

/-- One clock with the held port values. -/
def Bench.clock (b : Bench) (rst : Bool) : Bench := { b with machine := (b.present rst).tick }

/-- k clocks with the inputs as they stand. -/
def Bench.runClocks : Nat → Bench → Bench
  | 0, b => b
  | k + 1, b => Bench.runClocks k (b.clock false)

/-- Clocks up to and including the next one with `commit_stb = 1`, looking at most at the given number of clocks. -/
def Bench.toCommit : Nat → Bench → Bench
  | 0, b => b
  | k + 1, b => if (b.present false).commitStb then b.clock false else Bench.toCommit k (b.clock false)

/-- `UNTIL COMMIT`, m times. The bound is longer than any wait for a COMMIT clock from a reachable state (R121). -/
def Bench.untilCommit : Nat → Bench → Bench
  | 0, b => b
  | m + 1, b => Bench.untilCommit m (Bench.toCommit (longestIteration b.machine.clksPerUs) b)

/-- What one statement does (R57). -/
def Bench.exec (b : Bench) : Stmt → Bench
  | .reset => b.clock true
  | .pos n => { b with target := BitVec.ofInt 16 n }
  | .dly n => { b with delay := BitVec.ofNat 16 n }
  | .run k => Bench.runClocks k b
  | .untilCommit m => Bench.untilCommit m b

/-- A script, statement by statement. -/
def Bench.script : List Stmt → Bench → Bench
  | [], b => b
  | c :: cs, b => Bench.script cs (b.exec c)

end Sys2Proof.Machine
end

