-- ==== Sys2Proof/Safety.lean ====
section
/-! DEFINITION. The terms claims are stated in: the invariants of 10_state.md R29, the conditions on the input stream, the
settled condition (60_exceptions.md R104), and the event level of SMC (40_snapshot_delta.md R64, 41_sequencer.md R70,
42_delay_timer.md R80). -/

namespace Sys2Proof.Machine

/-- Two states differ at most in the ten registers: the inputs, the clock number and the parameter are the same. -/
abbrev State.SameInputs (s t : State) : Prop :=
  t.ports = s.ports ∧ t.coming = s.coming ∧ t.clock = s.clock ∧ t.clksPerUs = s.clksPerUs

/-- Two states have the same ten registers (10_state.md R13) and the same parameter. -/
abbrev State.SameRegisters (s t : State) : Prop :=
  t.phase = s.phase ∧ t.prevPosition = s.prevPosition ∧ t.snapPosition = s.snapPosition ∧ t.snapDelay = s.snapDelay ∧
  t.dir = s.dir ∧ t.cyclesLeft = s.cyclesLeft ∧ t.idx = s.idx ∧ t.unitsLeft = s.unitsLeft ∧ t.subCnt = s.subCnt ∧
  t.coilOut = s.coilOut ∧ t.clksPerUs = s.clksPerUs

/-- The ten registers hold their reset values (10_state.md R30). -/
abbrev State.RegistersReset (s : State) : Prop :=
  s.phase = .snap ∧ s.prevPosition = 0x0000#16 ∧ s.snapPosition = 0x0000#16 ∧ s.snapDelay = 0x0000#16 ∧ s.dir = 0#1 ∧
  s.cyclesLeft = 0x0000#16 ∧ s.idx = 0#3 ∧ s.unitsLeft = 0x0000#16 ∧ s.subCnt = 0 ∧ s.coilOut = 0x00#8

/-- `rst = 0` during the current clock and the n - 1 clocks after it. -/
abbrev State.NoReset (s : State) (n : Nat) : Prop := ∀ j < n, (s.inputAt j).rst = false

/-- `target_position = p` during the current clock and the n - 1 clocks after it. -/
abbrev State.TargetHeld (s : State) (p : Position) (n : Nat) : Prop := ∀ j < n, (s.inputAt j).targetPosition = p

/-- No move is in progress: the phases SNAP, DISPATCH and COMMIT (R29 item 7). -/
abbrev State.Idle (s : State) : Prop := s.phase = .snap ∨ s.phase = .dispatch ∨ s.phase = .commit

/-- A move is in progress: the phases EMIT, HOLD and NEXT. -/
abbrev State.Moving (s : State) : Prop := s.phase = .emit ∨ s.phase = .hold ∨ s.phase = .next

/-- R29 item 2: outside a move the counters stand at 0. -/
abbrev State.IdleInv (s : State) : Prop :=
  s.Idle → s.cyclesLeft = 0#16 ∧ s.idx = 0#3 ∧ s.unitsLeft = 0#16 ∧ s.subCnt = 0

/-- R29 item 3: in a move the cycle count is at least 1, the two positions differ, and `dir` is the sign of their difference. -/
abbrev State.MoveInv (s : State) : Prop :=
  s.Moving → 1 ≤ s.cyclesLeft.toNat ∧ s.snapPosition.toInt ≠ s.prevPosition.toInt ∧
    s.dir = (if s.prevPosition.toInt < s.snapPosition.toInt then 0#1 else 1#1)

/-- R29 item 4: in a hold the units left are 1 to D and `sub_cnt` is within a unit. -/
abbrev State.HoldInv (s : State) : Prop :=
  s.phase = .hold → 1 ≤ s.unitsLeft.toNat ∧ s.unitsLeft.toNat ≤ s.snapDelay.toNat ∧ s.subCnt ≤ unitClks s.clksPerUs - 1

/-- R29 item 5: before and after a hold the timer stands at 0. -/
abbrev State.TimerInv (s : State) : Prop := s.phase = .emit ∨ s.phase = .next → s.unitsLeft = 0#16 ∧ s.subCnt = 0

/-- R29 item 6: the patterns `coil_out` can hold. -/
abbrev State.CoilInv (s : State) : Prop :=
  s.coilOut ∈ [0x00#8, 0x01#8, 0x03#8, 0x02#8, 0x06#8, 0x04#8, 0x0C#8, 0x08#8, 0x09#8]

/-- The parameter is an integer at least 1 (R6). -/
abbrev State.ParamOk (s : State) : Prop := 1 ≤ s.clksPerUs

/-- The invariants of 10_state.md R29, with the range of the parameter. Item 1 is the type Phase. -/
abbrev State.Inv (s : State) : Prop :=
  s.ParamOk ∧ s.IdleInv ∧ s.MoveInv ∧ s.HoldInv ∧ s.TimerInv ∧ s.CoilInv

/-- The register sub_cnt fits its SUB_W bits (R21). -/
abbrev State.SubCntFits (s : State) : Prop := s.subCnt < 2 ^ subWidth (unitClks s.clksPerUs)

/-- The clock performs the first coil write of a move: EMIT with the counter as DISPATCH loaded it. -/
abbrev State.FirstWrite (s : State) : Prop := s.phase = .emit ∧ s.idx = 0#3 ∧ s.cyclesLeft = cyclesOf s.delta

/-- What the coil output holds between moves: nothing yet since reset, or the last entry of the last sequence driven
(41_sequencer.md R75). -/
abbrev AtRest (v : Pattern) : Prop := v = 0x00#8 ∨ v = 0x09#8 ∨ v = 0x01#8

/-- The history of the coil output (41_sequencer.md R75, R76): during and after a hold it shows the current entry; before a coil
write that is not the move's first it shows the entry before it; otherwise it shows what the last move, if any, left, and
outside a move `dir` still says which way that move went. -/
abbrev State.CoilHistory (s : State) : Prop :=
  (s.phase = .hold ∨ s.phase = .next → s.coilOut = s.currentEntry) ∧
  (s.phase = .emit → ¬ s.FirstWrite → s.coilOut = romRead (romAddress s.dir (s.idx - 1#3))) ∧
  (s.FirstWrite → AtRest s.coilOut) ∧
  (s.Idle → s.coilOut = 0x00#8 ∨ s.coilOut = romRead (romAddress s.dir 7#3))

/-- The engine is settled: the clock is a SNAP clock and the target is the position reached (60_exceptions.md R104 item 2). -/
abbrev State.Settled (s : State) : Prop := s.phase = .snap ∧ s.ports.targetPosition = s.prevPosition

/-- How many bits differ between two patterns: the coil lines a write changes. -/
def linesChanged (a b : Pattern) : Nat := ((List.range 8).filter fun k => a.getLsbD k != b.getLsbD k).length

/-- D consecutive Unit events (R80). -/
def holdEvents (d : Delay) : List Event := List.replicate d.toNat .unit

/-- SEQ_CW, as SMC's table gives it (30_encoding.md R50). -/
def seqCw : List Pattern := [0x01#8, 0x03#8, 0x02#8, 0x06#8, 0x04#8, 0x0C#8, 0x08#8, 0x09#8]

/-- SEQ_CCW, as SMC's table gives it (30_encoding.md R51). -/
def seqCcw : List Pattern := [0x09#8, 0x08#8, 0x0C#8, 0x04#8, 0x06#8, 0x02#8, 0x03#8, 0x01#8]

/-- One full cycle of a sequence at a delay: each entry written, then held (41_sequencer.md R70). -/
def cycleEvents (seq : List Pattern) (d : Delay) : List Event := seq.flatMap fun v => Event.coil v :: holdEvents d

/-- "Drive N full cycles of sequence S at delay D" (R70). -/
def moveEvents (n : Nat) (seq : List Pattern) (d : Delay) : List Event := (List.replicate n (cycleEvents seq d)).flatten

/-- The motion an iteration performs, from the position it starts at to the position it is aimed at (R64 items 2 to 5). -/
def motionEvents (p0 p : Position) (d : Delay) : List Event :=
  if p0.toInt < p.toInt then moveEvents (p.toInt - p0.toInt).toNat seqCw d
  else if p.toInt < p0.toInt then moveEvents (p0.toInt - p.toInt).toNat seqCcw d
  else []

/-- The event sequence of one iteration (R64). -/
def iterationEvents (p0 p : Position) (d : Delay) : List Event :=
  Event.snap p d :: (motionEvents p0 p d ++ [Event.commit p])

/-- The event-level engine: iterations one after the other, each starting at the position the last one committed (R64). -/
def engineEvents : Position → List (Position × Delay) → List Event
  | _, [] => []
  | p0, (p, d) :: rest => iterationEvents p0 p d ++ engineEvents p rest

/-- The event is a coil write. -/
def isCoil : Event → Bool
  | .coil _ => true
  | _ => false

/-- The event is a completed delay unit. -/
def isUnit : Event → Bool
  | .unit => true
  | _ => false

/-- The event is a commit. -/
def isCommit : Event → Bool
  | .commit _ => true
  | _ => false

/-- The number of sequence cycles from p0 to p: `abs(delta)` (R62). -/
def distance (p0 p : Position) : Nat := (p.toInt - p0.toInt).natAbs

/-- The coil period in clocks: `2 + D * UNIT_CLKS` (70_reset_and_hazards.md R122). -/
def coilPeriod (clksPerUs : Nat) (d : Delay) : Nat := 2 + d.toNat * unitClks clksPerUs

/-- The length of an iteration in clocks: `3 + 8 * N * (2 + D * UNIT_CLKS)` (70_reset_and_hazards.md R121). -/
def iterationClocks (clksPerUs n : Nat) (d : Delay) : Nat := 3 + 8 * n * coilPeriod clksPerUs d

end Sys2Proof.Machine
end

