-- ==== Sys2Proof/Certificates/Slice0/Obligations.lean ====
section
/-! DEFINITION. The statements for the provers. Each names the rule of the spec it formalises; where it rests on a choice of the
model or on an inference the spec marks as its own ("[derived: ...]"), its docstring says so. -/

open Sys2Proof Sys2Proof.Machine

/-! ## Reset (70_reset_and_hazards.md, 10_state.md section 10) -/

/-- R105. RESET puts every register at its reset value from every state and leaves the inputs alone; a clock with `rst = 1` performs
it whatever the phase, carries no event and shows no strobe; and while `rst` stays 1 the state stays at the reset state. -/
def Obligations.ResetTakesEveryRegisterToItsResetValue : Prop :=
  ∀ s : State,
    (∃ t, exec .reset s = .next t ∧ t.RegistersReset ∧ s.SameInputs t) ∧
    (s.ports.rst = true →
      decode s.code = .ok .reset ∧ (∃ t, step s = .next t ∧ t.RegistersReset) ∧
      s.snapStb = false ∧ s.coilStb = false ∧ s.unitStb = false ∧ s.commitStb = false ∧ s.event = none) ∧
    (∀ n, (∀ j < n + 1, (s.inputAt j).rst = true) → (s.ticks (n + 1)).RegistersReset)

/-- The state the model starts from has the registers of 10_state.md section 10, a legal parameter, and a SNAP clock as its first
clock (70_reset_and_hazards.md R106 is the spec's inference). That `rst` is 0 in it is the model's choice (log 2). -/
def Obligations.ResetStateStartsWithASnapClock : Prop :=
  State.reset.RegistersReset ∧ 1 ≤ State.reset.clksPerUs ∧ decode State.reset.code = .ok .snap ∧
  ∃ t, step State.reset = .next t ∧ t.phase = .dispatch

/-- A reset abandons the move in progress, and the first iteration after it starts at position 0 from the target the port then
carries (70_reset_and_hazards.md section 1, "Reset during a move", the spec's inference). -/
def Obligations.ResetAbandonsTheMove : Prop :=
  ∀ s : State, s.ParamOk → s.ports.rst = true →
    let i := s.inputAt 1
    let k := iterationClocks s.clksPerUs (distance 0#16 i.targetPosition) i.delay
    (∀ j < k, (s.inputAt (j + 1)).rst = false) →
    s.trace (1 + k) = iterationEvents 0#16 i.targetPosition i.delay

/-! ## The position-delta accumulator (40_snapshot_delta.md) -/

/-- R60. SNAP latches both ports of its clock, goes on to DISPATCH, changes nothing else, and its clock carries the Snap event. -/
def Obligations.SnapTakesTheSnapshot : Prop :=
  ∀ s : State,
    (∃ t, exec .snap s = .next t ∧
      t.snapPosition = s.ports.targetPosition ∧ t.snapDelay = s.ports.delay ∧ t.phase = .dispatch ∧
      t.prevPosition = s.prevPosition ∧ t.dir = s.dir ∧ t.cyclesLeft = s.cyclesLeft ∧ t.idx = s.idx ∧
      t.unitsLeft = s.unitsLeft ∧ t.subCnt = s.subCnt ∧ t.coilOut = s.coilOut ∧ s.SameInputs t) ∧
    (s.ports.rst = false → s.phase = .snap →
      decode s.code = .ok .snap ∧ s.snapStb = true ∧ s.event = some (.snap s.ports.targetPosition s.ports.delay))

/-- R61. DISPATCH forms the exact delta; zero skips the move and writes only the phase; otherwise `dir` is its sign,
`cycles_left` its magnitude, `idx` 0, and the move starts. -/
def Obligations.DispatchStartsOrSkipsTheMove : Prop :=
  ∀ s : State,
    (∃ t, exec .dispatch s = .next t ∧
      (s.snapPosition.toInt = s.prevPosition.toInt →
        t.phase = .commit ∧ t.dir = s.dir ∧ t.cyclesLeft = s.cyclesLeft ∧ t.idx = s.idx) ∧
      (s.snapPosition.toInt ≠ s.prevPosition.toInt →
        t.phase = .emit ∧ t.idx = 0#3 ∧
        t.dir = (if s.snapPosition.toInt - s.prevPosition.toInt < 0 then 1#1 else 0#1) ∧
        t.cyclesLeft.toNat = (s.snapPosition.toInt - s.prevPosition.toInt).natAbs) ∧
      t.prevPosition = s.prevPosition ∧ t.snapPosition = s.snapPosition ∧ t.snapDelay = s.snapDelay ∧
      t.unitsLeft = s.unitsLeft ∧ t.subCnt = s.subCnt ∧ t.coilOut = s.coilOut ∧ s.SameInputs t) ∧
    (s.ports.rst = false → s.phase = .dispatch →
      decode s.code = .ok .dispatch ∧ s.event = none ∧
      s.snapStb = false ∧ s.coilStb = false ∧ s.unitStb = false ∧ s.commitStb = false)

/-- R62. delta is the exact difference, between -65535 and 65535; the 17-bit subtraction of the sign-extended positions computes
it without overflow; and its magnitude fits 16 unsigned bits. -/
def Obligations.DeltaIsTheExactDifference : Prop :=
  ∀ snap prev : Position,
    deltaOf snap prev = snap.toInt - prev.toInt ∧
    (delta17 snap prev).toInt = snap.toInt - prev.toInt ∧
    -65535 ≤ deltaOf snap prev ∧ deltaOf snap prev ≤ 65535 ∧
    (cyclesOf (deltaOf snap prev)).toNat = (snap.toInt - prev.toInt).natAbs

/-- Operand assembly (30_encoding.md section 3): delta in 17 bits without loss; `dir` is its bit 16; `cycles_left` its magnitude;
the delay is used as it is; `idx` is the low three address bits. -/
def Obligations.OperandsAreAssembledFromBits : Prop :=
  ∀ s : State,
    (delta17 s.snapPosition s.prevPosition).toInt = s.snapPosition.toInt - s.prevPosition.toInt ∧
    (∃ t, exec .dispatch s = .next t ∧ (s.snapPosition.toInt ≠ s.prevPosition.toInt →
      t.dir = (delta17 s.snapPosition s.prevPosition).extractLsb' 16 1 ∧
      t.cyclesLeft.toNat = (delta17 s.snapPosition s.prevPosition).toInt.natAbs)) ∧
    (∃ t, exec .emit s = .next t ∧ t.unitsLeft = s.snapDelay) ∧
    (romAddress s.dir s.idx).extractLsb' 0 3 = s.idx

/-- R63. COMMIT copies the snapshot position, not the port, into Previous Position, and goes back to SNAP. -/
def Obligations.CommitRecordsTheSnapshotPosition : Prop :=
  ∀ s : State,
    (∃ t, exec .commit s = .next t ∧ t.prevPosition = s.snapPosition ∧ t.phase = .snap ∧
      t.snapPosition = s.snapPosition ∧ t.snapDelay = s.snapDelay ∧ t.dir = s.dir ∧ t.cyclesLeft = s.cyclesLeft ∧
      t.idx = s.idx ∧ t.unitsLeft = s.unitsLeft ∧ t.subCnt = s.subCnt ∧ t.coilOut = s.coilOut ∧ s.SameInputs t) ∧
    (s.ports.rst = false → s.phase = .commit →
      decode s.code = .ok .commit ∧ s.commitStb = true ∧ s.event = some (.commit s.snapPosition))

/-- An iteration with a zero delta is three clocks, Snap and Commit, and moves nothing (40_snapshot_delta.md section 6,
"Zero delta", the spec's inference). -/
def Obligations.ZeroDeltaIterationMovesNothing : Prop :=
  ∀ s : State, s.phase = .snap → s.NoReset 3 → s.ports.targetPosition = s.prevPosition →
    (s.ticks 3).phase = .snap ∧ (s.ticks 3).prevPosition = s.prevPosition ∧
    s.trace 3 = [.snap s.prevPosition s.ports.delay, .commit s.prevPosition] ∧
    ∀ j ≤ 3, (s.ticks j).coilOut = s.coilOut ∧ (s.ticks j).dir = s.dir ∧
      (j < 3 → (s.ticks j).coilStb = false ∧ (s.ticks j).unitStb = false)

/-! ## The ROM, the coil-pattern counter and the output mux (20_memory.md, 30_encoding.md, 41_sequencer.md) -/

/-- R40, R50, R51. The sixteen entries of the sequence ROM. -/
def Obligations.RomHoldsTheTwoSequences : Prop :=
  romRead 0x0#4 = 0x01#8 ∧ romRead 0x1#4 = 0x03#8 ∧ romRead 0x2#4 = 0x02#8 ∧ romRead 0x3#4 = 0x06#8 ∧
  romRead 0x4#4 = 0x04#8 ∧ romRead 0x5#4 = 0x0C#8 ∧ romRead 0x6#4 = 0x08#8 ∧ romRead 0x7#4 = 0x09#8 ∧
  romRead 0x8#4 = 0x09#8 ∧ romRead 0x9#4 = 0x08#8 ∧ romRead 0xA#4 = 0x0C#8 ∧ romRead 0xB#4 = 0x04#8 ∧
  romRead 0xC#4 = 0x06#8 ∧ romRead 0xD#4 = 0x02#8 ∧ romRead 0xE#4 = 0x03#8 ∧ romRead 0xF#4 = 0x01#8 ∧
  ∀ d i, romAddress d i = BitVec.ofNat 4 (8 * d.toNat + i.toNat)

/-- The properties of the two tables that 30_encoding.md section 2 infers from them (R59 is the spec's inference): mirror images;
one or two lines on; neighbours, cyclically, differ in one line; last of one is first of the other; none is 0x00. -/
def Obligations.TablesAreMirroredAndStepOneLine : Prop :=
  ∀ (d : Direction) (i : EntryIndex),
    romRead (romAddress 1#1 i) = romRead (romAddress 0#1 (7#3 - i)) ∧
    linesChanged 0x00#8 (romRead (romAddress 0#1 i)) = (if i.toNat % 2 = 0 then 1 else 2) ∧
    linesChanged (romRead (romAddress d i)) (romRead (romAddress d (i + 1#3))) = 1 ∧
    romRead (romAddress d 7#3) = romRead (romAddress (d + 1#1) 0#3) ∧
    romRead (romAddress d i) ≠ 0x00#8

/-- The ROM address is `dir` above `idx`, and it is the address EMIT reads (30_encoding.md section 1, format RA). -/
def Obligations.RomAddressIsDirAboveIdx : Prop :=
  ∀ s : State,
    (romAddress s.dir s.idx).toNat = 8 * s.dir.toNat + s.idx.toNat ∧
    (romAddress s.dir s.idx).extractLsb' 3 1 = s.dir ∧ (romAddress s.dir s.idx).extractLsb' 0 3 = s.idx ∧
    ∃ t, exec .emit s = .next t ∧ t.coilOut = romRead (s.dir ++ s.idx)

/-- R72. What EMIT writes is the entry at `idx` of the sequence `dir` selects; the mux has no other input (states with the same
`dir` and `idx` write the same pattern); and nothing but a ROM entry reaches the coil output, in any clock without reset. -/
def Obligations.OutputMuxSelectsTheSequence : Prop :=
  (∀ s : State, ∃ t, exec .emit s = .next t ∧
    (s.dir = 0#1 → seqCw[s.idx.toNat]? = some t.coilOut) ∧
    (s.dir = 1#1 → seqCcw[s.idx.toNat]? = some t.coilOut) ∧
    t.coilOut = romRead (romAddress s.dir s.idx) ∧
    ∀ s' t' : State, s'.dir = s.dir → s'.idx = s.idx → exec .emit s' = .next t' → t'.coilOut = t.coilOut) ∧
  (∀ s t : State, s.ports.rst = false → step s = .next t →
    t.coilOut = (if s.phase = .emit then romRead (romAddress s.dir s.idx) else s.coilOut))

/-- R71. EMIT writes the addressed entry to the coil output, loads the timer from the snapshotted delay, clears `sub_cnt`, and goes
to NEXT when the delay is 0 and to HOLD otherwise; nothing else changes. -/
def Obligations.EmitWritesTheCurrentEntry : Prop :=
  ∀ s : State,
    (∃ t, exec .emit s = .next t ∧
      t.coilOut = romRead (romAddress s.dir s.idx) ∧ t.unitsLeft = s.snapDelay ∧ t.subCnt = 0 ∧
      t.phase = (if s.snapDelay = 0x0000#16 then .next else .hold) ∧
      t.prevPosition = s.prevPosition ∧ t.snapPosition = s.snapPosition ∧ t.snapDelay = s.snapDelay ∧ t.dir = s.dir ∧
      t.cyclesLeft = s.cyclesLeft ∧ t.idx = s.idx ∧ s.SameInputs t) ∧
    (s.ports.rst = false → s.phase = .emit →
      decode s.code = .ok .emit ∧ s.coilStb = true ∧ s.event = some (.coil (romRead (romAddress s.dir s.idx))))

/-- The sixteen ROM rows of the opcode table, as coil writes of their entries: each completes with the row's pattern on the coil
output and the rest as in 41_sequencer.md section 2, and is what EMIT does where `{dir, idx}` is the row's address. That a ROM
row has a meaning of its own is the model's choice (log 5). -/
def Obligations.RomRowsWriteTheirPatterns : Prop :=
  ∀ s : State,
    ∀ r ∈ [(Instr.cw0, 0x0#4, 0x01#8), (.cw1, 0x1#4, 0x03#8), (.cw2, 0x2#4, 0x02#8), (.cw3, 0x3#4, 0x06#8),
           (.cw4, 0x4#4, 0x04#8), (.cw5, 0x5#4, 0x0C#8), (.cw6, 0x6#4, 0x08#8), (.cw7, 0x7#4, 0x09#8),
           (.ccw0, 0x8#4, 0x09#8), (.ccw1, 0x9#4, 0x08#8), (.ccw2, 0xA#4, 0x0C#8), (.ccw3, 0xB#4, 0x04#8),
           (.ccw4, 0xC#4, 0x06#8), (.ccw5, 0xD#4, 0x02#8), (.ccw6, 0xE#4, 0x03#8), (.ccw7, 0xF#4, 0x01#8)],
    (∃ t, exec r.1 s = .next t ∧
      t.coilOut = r.2.2 ∧ t.unitsLeft = s.snapDelay ∧ t.subCnt = 0 ∧
      t.phase = (if s.snapDelay = 0x0000#16 then .next else .hold) ∧
      t.prevPosition = s.prevPosition ∧ t.snapPosition = s.snapPosition ∧ t.snapDelay = s.snapDelay ∧ t.dir = s.dir ∧
      t.cyclesLeft = s.cyclesLeft ∧ t.idx = s.idx ∧ s.SameInputs t) ∧
    (romAddress s.dir s.idx = r.2.1 → exec .emit s = exec r.1 s)

/-- R73. NEXT steps to the next entry, or after the eighth starts a new sequence cycle or ends the move; the tests are on the
values before the update, and `cycles_left` 0 wraps to 0xFFFF. -/
def Obligations.NextAdvancesTheCoilCounter : Prop :=
  ∀ s : State,
    (∃ t, exec .next s = .next t ∧
      (s.idx ≠ 7#3 → t.idx.toNat = s.idx.toNat + 1 ∧ t.cyclesLeft = s.cyclesLeft ∧ t.phase = .emit) ∧
      (s.idx = 7#3 → t.idx = 0#3 ∧
        (1 ≤ s.cyclesLeft.toNat → t.cyclesLeft.toNat = s.cyclesLeft.toNat - 1) ∧
        (s.cyclesLeft = 0x0000#16 → t.cyclesLeft = 0xFFFF#16) ∧
        t.phase = (if s.cyclesLeft = 0x0001#16 then .commit else .emit)) ∧
      t.prevPosition = s.prevPosition ∧ t.snapPosition = s.snapPosition ∧ t.snapDelay = s.snapDelay ∧ t.dir = s.dir ∧
      t.unitsLeft = s.unitsLeft ∧ t.subCnt = s.subCnt ∧ t.coilOut = s.coilOut ∧ s.SameInputs t) ∧
    (s.ports.rst = false → s.phase = .next →
      decode s.code = .ok .next ∧ s.event = none ∧
      s.snapStb = false ∧ s.coilStb = false ∧ s.unitStb = false ∧ s.commitStb = false)

/-- From the first EMIT of a move of N cycles the engine drives exactly N full cycles of the sequence `dir` selects at the
snapshotted delay, and then reaches COMMIT (41_sequencer.md section 1). The number of clocks it takes, and so the clock it reaches
COMMIT in, is the spec's inference (60_exceptions.md section 10, "Progress"). -/
def Obligations.MoveDrivesNFullCycles : Prop :=
  (∀ s : State, s.ParamOk → s.phase = .emit → s.idx = 0#3 → 1 ≤ s.cyclesLeft.toNat →
    let k := 8 * s.cyclesLeft.toNat * coilPeriod s.clksPerUs s.snapDelay
    s.NoReset k →
    s.trace k = moveEvents s.cyclesLeft.toNat (if s.dir = 0#1 then seqCw else seqCcw) s.snapDelay ∧
    (s.ticks k).phase = .commit) ∧
  (∀ (n : Nat) (d : Delay), ∀ seq ∈ [seqCw, seqCcw],
    (moveEvents n seq d).countP isCoil = 8 * n ∧ (moveEvents n seq d).countP isUnit = 8 * n * d.toNat ∧
    (moveEvents n seq d).length = 8 * n + 8 * n * d.toNat)

/-- coil_out changes in EMIT clocks and at a reset only, over a run of any length (41_sequencer.md section 4, "Retention", the
spec's inference). -/
def Obligations.CoilOutIsRetainedOutsideEmit : Prop :=
  ∀ (n : Nat) (s : State), s.NoReset n → (∀ j < n, (s.ticks j).phase ≠ .emit) → (s.ticks n).coilOut = s.coilOut

/-- The history of the coil output holds at reset (the invariant is the model's reading of 41_sequencer.md section 4). -/
def Obligations.CoilHistoryHoldsAtReset : Prop := State.reset.CoilHistory

/-- Every step keeps the history of the coil output: during a hold the current entry, before a later coil write the entry before
it, between moves what the last move left (41_sequencer.md section 4, "Retention", the spec's inference). -/
def Obligations.EveryStepKeepsTheCoilHistory : Prop :=
  ∀ s t : State, s.CoilHistory → step s = .next t → t.CoilHistory

/-- How many coil lines a coil write changes (41_sequencer.md section 4, "What the coil lines do at each write", the spec's
inference): one line at every write of a move but the first; at the first write of a move one or two after reset, one when the
move goes the way the last one went, none when it goes the other way. -/
def Obligations.CoilWriteChangesFewLines : Prop :=
  ∀ s t : State, s.CoilHistory → s.ports.rst = false → s.phase = .emit → step s = .next t →
    (¬ s.FirstWrite → linesChanged s.coilOut t.coilOut = 1) ∧
    (s.FirstWrite → s.coilOut = 0x00#8 → linesChanged s.coilOut t.coilOut = (if s.dir = 0#1 then 1 else 2)) ∧
    (s.FirstWrite → s.coilOut = romRead (romAddress s.dir 7#3) → linesChanged s.coilOut t.coilOut = 1) ∧
    (s.FirstWrite → s.coilOut = romRead (romAddress (s.dir + 1#1) 7#3) → t.coilOut = s.coilOut)

/-! ## The timed pulse generator (42_delay_timer.md) -/

/-- R81. HOLD counts one clock; the last clock of a unit clears `sub_cnt`, takes one from `units_left` (0 wraps to 0xFFFF) and ends
the hold when one unit was left; nothing else changes. HOLD is entered from EMIT only, with the timer loaded, and lasts
`snap_delay` units of UNIT_CLKS clocks, which nothing but reset cuts short. What `sub_cnt` becomes from a value past
UNIT_CLKS - 1, which no run reaches, is stated in SubCntStaysInItsWidth. -/
def Obligations.HoldCountsClocksAndUnits : Prop :=
  (∀ s t : State, step s = .next t → t.phase = .hold → s.phase ≠ .hold →
    s.phase = .emit ∧ t.unitsLeft = s.snapDelay ∧ 1 ≤ t.unitsLeft.toNat ∧ t.subCnt = 0) ∧
  (∀ s : State, s.ParamOk → s.phase = .emit → 1 ≤ s.snapDelay.toNat →
    let k := s.snapDelay.toNat * unitClks s.clksPerUs
    s.NoReset (k + 1) → (∀ j < k, (s.ticks (j + 1)).phase = .hold) ∧ (s.ticks (k + 1)).phase = .next) ∧
  ∀ s : State,
    (∃ t, exec .hold s = .next t ∧
      (s.subCnt ≠ unitClks s.clksPerUs - 1 → t.unitsLeft = s.unitsLeft ∧ t.phase = s.phase) ∧
      (s.subCnt < unitClks s.clksPerUs - 1 → t.subCnt = s.subCnt + 1) ∧
      (s.subCnt = unitClks s.clksPerUs - 1 →
        t.subCnt = 0 ∧
        (1 ≤ s.unitsLeft.toNat → t.unitsLeft.toNat = s.unitsLeft.toNat - 1) ∧
        (s.unitsLeft = 0x0000#16 → t.unitsLeft = 0xFFFF#16) ∧
        t.phase = (if s.unitsLeft = 0x0001#16 then .next else .hold)) ∧
      t.prevPosition = s.prevPosition ∧ t.snapPosition = s.snapPosition ∧ t.snapDelay = s.snapDelay ∧ t.dir = s.dir ∧
      t.cyclesLeft = s.cyclesLeft ∧ t.idx = s.idx ∧ t.coilOut = s.coilOut ∧ s.SameInputs t) ∧
    (s.ports.rst = false → s.phase = .hold →
      decode s.code = .ok .hold ∧
      (s.unitStb = true ↔ s.subCnt = unitClks s.clksPerUs - 1) ∧
      s.event = (if s.subCnt = unitClks s.clksPerUs - 1 then some .unit else none))

/-- UNIT_CLKS and SUB_W (00_scope.md section 4): a unit is 10 * CLKS_PER_US clocks; SUB_W is the smallest width that holds
UNIT_CLKS values, 4 when CLKS_PER_US is 1; and no run of the engine changes the parameter (log 3). -/
def Obligations.TimerWidthsFollowTheParameter : Prop :=
  (∀ c, unitClks c = 10 * c) ∧
  (∀ c, 1 ≤ c → unitClks c ≤ 2 ^ subWidth (unitClks c) ∧ ∀ w < subWidth (unitClks c), 2 ^ w < unitClks c) ∧
  subWidth (unitClks 1) = 4 ∧
  (∀ (n : Nat) (s : State), (s.ticks n).clksPerUs = s.clksPerUs)

/-- sub_cnt never leaves its SUB_W bits, and counts modulo 2^SUB_W from a value past the end of a unit (model's choice, log 4:
the register is a number in the model). -/
def Obligations.SubCntStaysInItsWidth : Prop :=
  (∀ s t : State, s.SubCntFits → step s = .next t → t.SubCntFits) ∧
  (∀ s t : State, s.ports.rst = false → s.phase = .hold → s.subCnt ≠ unitClks s.clksPerUs - 1 → step s = .next t →
    t.subCnt = (s.subCnt + 1) % 2 ^ subWidth (unitClks s.clksPerUs))

/-- A hold entered with D units left and `sub_cnt` 0 lasts exactly D * UNIT_CLKS clocks; `unit_stb` is 1 in the last clock of each
unit and in no other; and it changes nothing but the timer (42_delay_timer.md section 3, "Length of a hold", the spec's
inference). -/
def Obligations.HoldLastsDelayTimesUnit : Prop :=
  ∀ s : State, s.ParamOk → s.phase = .hold → s.subCnt = 0 → 1 ≤ s.unitsLeft.toNat →
    let u := unitClks s.clksPerUs
    let k := s.unitsLeft.toNat * u
    s.NoReset k →
    (∀ j < k, (s.ticks j).phase = .hold ∧ ((s.ticks j).unitStb = true ↔ (j + 1) % u = 0) ∧
      (s.ticks j).coilOut = s.coilOut) ∧
    (s.ticks k).phase = .next ∧ (s.ticks k).unitsLeft = 0x0000#16 ∧ (s.ticks k).subCnt = 0 ∧
    (s.ticks k).coilOut = s.coilOut ∧ (s.ticks k).dir = s.dir ∧ (s.ticks k).idx = s.idx ∧
    (s.ticks k).cyclesLeft = s.cyclesLeft ∧ (s.ticks k).snapDelay = s.snapDelay ∧
    (s.ticks k).snapPosition = s.snapPosition ∧ (s.ticks k).prevPosition = s.prevPosition

/-- With delay 0 there is no hold: a coil write every two clocks and no Unit event (42_delay_timer.md section 3, "Zero delay"; that
the 2 is a consequence of the phases is the spec's own decision). -/
def Obligations.ZeroDelayWritesEveryTwoClocks : Prop :=
  ∀ s : State, s.phase = .emit → s.snapDelay = 0x0000#16 → s.NoReset 2 →
    (s.ticks 1).phase = .next ∧ s.trace 2 = [.coil (romRead (romAddress s.dir s.idx))] ∧
    (s.ticks 2).snapDelay = 0x0000#16 ∧
    (s.ticks 2).phase = (if s.idx = 7#3 ∧ s.cyclesLeft = 0x0001#16 then .commit else .emit)

/-! ## Control: selection, successors, progress (30_encoding.md section 4, 60_exceptions.md) -/

/-- R54. The code on the phase register selects the operation, by the complete map of six codes; `rst = 1` overrides it with
reset, which has no phase code; every state selects one; and a step is the selected operation, followed by the next clock's
inputs. -/
def Obligations.StepRunsTheSelectedOperation : Prop :=
  (∀ (s : State) (i : Instr), decode s.code = .ok i →
    ∃ t, exec i s = .next t ∧ step s = .next t.nextInputs) ∧
  (∀ s : State, ∃ i, decode s.code = .ok i) ∧
  (∀ s : State, s.ports.rst = true → decode s.code = .ok .reset) ∧
  (∀ s : State, s.ports.rst = false →
    s.code.format = .phase ∧ s.code = s.phase.code ∧ decode s.code = .ok s.phase.instr) ∧
  decode ⟨.phase, 0b000⟩ = .ok .snap ∧ decode ⟨.phase, 0b001⟩ = .ok .dispatch ∧ decode ⟨.phase, 0b010⟩ = .ok .emit ∧
  decode ⟨.phase, 0b011⟩ = .ok .hold ∧ decode ⟨.phase, 0b100⟩ = .ok .next ∧ decode ⟨.phase, 0b101⟩ = .ok .commit

/-- R66. The successors of every phase, and reset to SNAP from anywhere; there is no other transfer of control. -/
def Obligations.PhaseSuccessorsAreTheListedOnes : Prop :=
  ∀ s t : State, step s = .next t →
    (s.ports.rst = true → t.phase = .snap) ∧
    (s.ports.rst = false →
      (s.phase = .snap → t.phase = .dispatch) ∧
      (s.phase = .dispatch → t.phase = (if s.snapPosition.toInt = s.prevPosition.toInt then .commit else .emit)) ∧
      (s.phase = .emit → t.phase = (if s.snapDelay = 0x0000#16 then .next else .hold)) ∧
      (s.phase = .hold →
        t.phase = (if s.subCnt = unitClks s.clksPerUs - 1 ∧ s.unitsLeft = 0x0001#16 then .next else .hold)) ∧
      (s.phase = .next → t.phase = (if s.idx = 7#3 ∧ s.cyclesLeft = 0x0001#16 then .commit else .emit)) ∧
      (s.phase = .commit → t.phase = .snap))

/-- R90. No operation raises an exception: every instruction completes in every state, every state has a successor, and the set of
faults is empty. -/
def Obligations.NoOperationRaisesAnException : Prop :=
  (∀ (i : Instr) (s : State), ∃ t, exec i s = .next t) ∧ (∀ s : State, ∃ t, step s = .next t) ∧ (Fault → False)

/-- R102. The engine takes a step at every clock for ever: a run of any length from any state reaches a state, one clock number
later for each step. -/
def Obligations.EngineStepsForEver : Prop :=
  ∀ (n : Nat) (s : State), Host.Core.run Sys2Proof.core n s = .next (s.ticks n) ∧ (s.ticks n).clock = s.clock + n

/-- The input values a run sees: the k-th clock sees the k-th values of the stream the state holds (00_scope.md section 5; how the
stream is held is the model's choice, log 1). -/
def Obligations.RunsReadTheInputStreamInOrder : Prop :=
  ∀ (n j : Nat) (s : State), (s.ticks n).inputAt j = s.inputAt (n + j)

/-- R93. Coincident events: reset wins over every phase and carries no event; a SNAP clock takes the values of its own clock whatever
the next clock's are, both of them together; and the values of later clocks change nothing before the next SNAP clock. -/
def Obligations.CoincidentEventsHaveAFixedOrder : Prop :=
  (∀ s t : State, s.ports.rst = true → step s = .next t → t.RegistersReset ∧ s.event = none ∧
    s.snapStb = false ∧ s.coilStb = false ∧ s.unitStb = false ∧ s.commitStb = false) ∧
  (∀ s t : State, s.ports.rst = false → s.phase = .snap → step s = .next t →
    (t.snapPosition, t.snapDelay) = (s.ports.targetPosition, s.ports.delay) ∧ t.ports = s.inputAt 1) ∧
  (∀ (n : Nat) (s s' : State), s.phase = .snap → s.SameRegisters s' → s'.ports = s.ports → s.NoReset n → s'.NoReset n →
    (∀ j < n, 1 ≤ j → (s.ticks j).phase ≠ .snap) → (s.ticks n).SameRegisters (s'.ticks n))

/-- R27. The four strobes are pure functions of the state and `rst`, each 1 exactly under its condition, and show the events; so
coil writes and delay units can be counted at the strobes. -/
def Obligations.StrobesShowTheEvents : Prop :=
  (∀ (n : Nat) (s : State),
    (s.trace n).countP isCoil = ((List.range n).filter fun j => (s.ticks j).coilStb).length ∧
    (s.trace n).countP isUnit = ((List.range n).filter fun j => (s.ticks j).unitStb).length) ∧
  ∀ s : State,
    (s.snapStb = true ↔ s.ports.rst = false ∧ s.phase = .snap) ∧
    (s.coilStb = true ↔ s.ports.rst = false ∧ s.phase = .emit) ∧
    (s.unitStb = true ↔ s.ports.rst = false ∧ s.phase = .hold ∧ s.subCnt = unitClks s.clksPerUs - 1) ∧
    (s.commitStb = true ↔ s.ports.rst = false ∧ s.phase = .commit) ∧
    (s.snapStb = true → s.event = some (.snap s.ports.targetPosition s.ports.delay)) ∧
    (s.coilStb = true → s.event = some (.coil (romRead (romAddress s.dir s.idx))) ∧
      ∀ t, step s = .next t → t.coilOutPort = romRead (romAddress s.dir s.idx)) ∧
    (s.unitStb = true → s.event = some .unit) ∧
    (s.commitStb = true → s.event = some (.commit s.snapPosition) ∧
      ∀ t, step s = .next t → t.prevPositionPort = s.snapPosition)

/-- A clock carries an event exactly when one strobe is 1, and at most one is (95_test_vectors.md section 2.8 and 00_scope.md
section 5). -/
def Obligations.AtMostOneStrobe : Prop :=
  ∀ s : State,
    (s.event = none ↔ s.snapStb = false ∧ s.coilStb = false ∧ s.unitStb = false ∧ s.commitStb = false) ∧
    (s.snapStb.toNat + s.coilStb.toNat + s.unitStb.toNat + s.commitStb.toNat ≤ 1)

/-! ## Encoding (30_encoding.md, spec/opcode_table.json) -/

/-- Words written out from the spec's tables decode to their rows (30_encoding.md section 4 and 20_memory.md section 3). -/
def Obligations.TableWordsDecodeToTheirRows : Prop :=
  decode ⟨.phase, 0b000⟩ = .ok .snap ∧ decode ⟨.phase, 0b011⟩ = .ok .hold ∧ decode ⟨.phase, 0b101⟩ = .ok .commit ∧
  decode ⟨.rst, 0b1⟩ = .ok .reset ∧ decode ⟨.rom, 0b0011⟩ = .ok .cw3 ∧ decode ⟨.rom, 0b0111⟩ = .ok .cw7 ∧
  decode ⟨.rom, 0b1000⟩ = .ok .ccw0 ∧ decode ⟨.rom, 0b1101⟩ = .ok .ccw5

/-- Decode and encode agree in both directions, over every code of every carrier: a code decodes to a row exactly when it is the
row's code, and it decodes at all exactly when it is well-formed (30_encoding.md sections 4 and 5). -/
def Obligations.DecoderAcceptsExactlyTheTable : Prop :=
  (∀ (c : Code) (i : Instr), decode c = .ok i ↔ encode i = c) ∧
  (∀ c : Code, c.wellFormed = true ↔ ∃ i, decode c = .ok i)

/-- PHASE codes 6 and 7 name no operation and are rejected by name; the phase register of the model never shows them
(30_encoding.md section 5). -/
def Obligations.UnusedPhaseCodesAreRejected : Prop :=
  decode ⟨.phase, 6⟩ = .rejected .unusedPhaseCode ∧ decode ⟨.phase, 7⟩ = .rejected .unusedPhaseCode ∧
  ∀ p : Phase, p.code.format = .phase ∧ p.code.bits ≤ 5

/-- Placing a code of the table makes the very next step perform its row (the model's choice of what stands for a fetch, log 7);
a ROM row is performed as the EMIT that reads it (log 5). -/
def Obligations.PlacedCodeRunsNext : Prop :=
  ∀ (s : State) (c : Code) (i : Instr), decode c = .ok i →
    ∃ t, exec i (s.placeCode c) = .next t ∧ step (s.placeCode c) = .next t.nextInputs

/-! ## Registers: invariants, writers, ranges (10_state.md) -/

/-- The invariants of 10_state.md section 9 hold at reset. -/
def Obligations.InvariantsHoldAtReset : Prop := State.reset.Inv

/-- Every step keeps the invariants of 10_state.md section 9 (the spec's inference, by induction on the number of clocks),
whatever the inputs. -/
def Obligations.EveryStepKeepsTheInvariants : Prop :=
  ∀ s t : State, s.Inv → step s = .next t → t.Inv

/-- Which operations write each register (the table of 10_state.md section 1): with `rst = 0` a register changes only in a phase
listed for it. -/
def Obligations.EachRegisterHasItsWriters : Prop :=
  ∀ s t : State, s.ports.rst = false → step s = .next t →
    (s.phase ≠ .commit → t.prevPosition = s.prevPosition) ∧
    (s.phase ≠ .snap → t.snapPosition = s.snapPosition ∧ t.snapDelay = s.snapDelay) ∧
    (s.phase ≠ .dispatch → t.dir = s.dir) ∧
    (s.phase ≠ .dispatch → s.phase ≠ .next → t.cyclesLeft = s.cyclesLeft ∧ t.idx = s.idx) ∧
    (s.phase ≠ .emit → s.phase ≠ .hold → t.unitsLeft = s.unitsLeft ∧ t.subCnt = s.subCnt) ∧
    (s.phase ≠ .emit → t.coilOut = s.coilOut)

/-- No counter wraps in a state that meets the invariants (40_snapshot_delta.md section 6, "Arithmetic laws of the counters", the
spec's inference). -/
def Obligations.CountersNeverWrap : Prop :=
  ∀ s t : State, s.Inv → s.ports.rst = false → step s = .next t →
    (s.phase = .next → s.idx = 7#3 → t.cyclesLeft.toNat + 1 = s.cyclesLeft.toNat) ∧
    (s.phase = .next → s.idx ≠ 7#3 → t.idx.toNat = s.idx.toNat + 1) ∧
    (s.phase = .hold → s.subCnt = unitClks s.clksPerUs - 1 → t.unitsLeft.toNat + 1 = s.unitsLeft.toNat) ∧
    (s.phase = .hold → s.subCnt ≠ unitClks s.clksPerUs - 1 → t.subCnt = s.subCnt + 1) ∧
    (s.phase = .dispatch → s.snapPosition ≠ s.prevPosition → (t.cyclesLeft.toNat : Int) = |s.delta|)

/-! ## The environment's part (20_memory.md section 4, 70_reset_and_hazards.md sections 3 and 4) -/

/-- The ports are read in SNAP only: in every other phase two states that differ only in what `target_position` and `delay` carry
now and in all inputs to come have the same registers one clock later (20_memory.md section 4, "No read between
snapshots"). -/
def Obligations.PortsAreReadInSnapOnly : Prop :=
  ∀ s s' t t' : State, s.SameRegisters s' → s.ports.rst = false → s'.ports.rst = false → s.phase ≠ .snap →
    step s = .next t → step s' = .next t' → t.SameRegisters t'

/-- A move cannot be changed once started: until the next SNAP clock the registers and the events are the same whatever the two
ports carry (70_reset_and_hazards.md section 4, "A move cannot be changed once started", the spec's inference). -/
def Obligations.MoveIgnoresThePorts : Prop :=
  ∀ (n : Nat) (s s' : State), s.SameRegisters s' → s.NoReset n → s'.NoReset n → (∀ j < n, (s.ticks j).phase ≠ .snap) →
    (s.ticks n).SameRegisters (s'.ticks n) ∧ s.trace n = s'.trace n

/-- A new target first on the port in an idle clock is sampled at most 2 clocks later, and the first coil write is performed 2
clocks after that SNAP and shows one clock later (70_reset_and_hazards.md section 5, "Latency from a command to motion", the
spec's inference). -/
def Obligations.CommandLatencyIsAtMostTwoClocks : Prop :=
  ∀ (s : State) (p : Position), s.Idle → (s.phase = .dispatch → s.snapPosition = s.prevPosition) →
    (s.phase = .commit → s.snapPosition ≠ p) → (s.phase ≠ .commit → s.prevPosition ≠ p) →
    s.NoReset 5 → s.TargetHeld p 3 →
    ∃ w ≤ 2, (s.ticks w).snapStb = true ∧ (s.ticks (w + 1)).snapPosition = p ∧ (s.ticks (w + 2)).coilStb = true ∧
      (s.ticks (w + 3)).coilOut = romRead (romAddress (s.ticks (w + 2)).dir 0#3) ∧
      ∀ j < w, (s.ticks j).snapStb = false ∧ (s.ticks j).coilStb = false

/-- A settled engine stays settled while the target stays: SNAP every third clock, no coil write, no delay unit, the coil output and
the position keep their values; the delay port is free (60_exceptions.md section 11 item 2, the spec's inference). -/
def Obligations.SettledEngineStaysSettled : Prop :=
  ∀ (n : Nat) (s : State), s.Settled → s.NoReset n → s.TargetHeld s.prevPosition n →
    (s.ticks n).coilOut = s.coilOut ∧ (s.ticks n).prevPosition = s.prevPosition ∧
    (∀ j < n, (s.ticks j).coilStb = false ∧ (s.ticks j).unitStb = false ∧ ((s.ticks j).snapStb = true ↔ j % 3 = 0))

/-- A target that stays is reached: from every state that meets the invariants the engine is settled at it after at most two
iterations, that is two Commit events, and within the length of two longest iterations (60_exceptions.md section 11 item 3, the
spec's inference; the bound in clocks is 42_delay_timer.md section 3, "Ranges"). -/
def Obligations.HeldTargetIsReached : Prop :=
  ∀ (s : State) (p : Position), s.Inv →
    let b := 2 * longestIteration s.clksPerUs
    s.NoReset (b + 1) → s.TargetHeld p (b + 1) →
    ∃ n ≤ b, (s.ticks n).Settled ∧ (s.ticks n).prevPosition = p ∧ (s.trace n).countP isCommit ≤ 2

/-! ## Iterations and the event level (40_snapshot_delta.md section 1, 00_scope.md section 5, 70_reset_and_hazards.md section 5) -/

/-- One iteration, from a SNAP clock to its COMMIT clock, carries exactly the events of the event level: Snap, then abs(delta)
full cycles of the sequence of delta's sign at the snapshotted delay, then Commit; the next iteration starts with Previous
Position at the snapshot position (40_snapshot_delta.md section 1). The number of clocks is the spec's inference
(70_reset_and_hazards.md section 5, "Length of an iteration"). -/
def Obligations.IterationCarriesTheEventLevelTrace : Prop :=
  ∀ s : State, s.ParamOk → s.phase = .snap →
    let k := iterationClocks s.clksPerUs (distance s.prevPosition s.ports.targetPosition) s.ports.delay
    s.NoReset k →
    s.trace k = iterationEvents s.prevPosition s.ports.targetPosition s.ports.delay ∧
    (s.ticks k).phase = .snap ∧ (s.ticks k).prevPosition = s.ports.targetPosition

/-- Where the events of an iteration fall (70_reset_and_hazards.md section 5, the spec's inference): DISPATCH in clock 1; the j-th
coil write, entry j mod 8 of sequence cycle j div 8, in clock 2 + j * P; the u-th delay unit after it ends u units later; its
NEXT in the last clock of the coil period P; COMMIT in clock 2 + 8 * N * P; the next SNAP one later. -/
def Obligations.EventsFallAtTheirClocks : Prop :=
  ∀ s : State, s.ParamOk → s.phase = .snap →
    let n := distance s.prevPosition s.ports.targetPosition
    let d := s.ports.delay
    let u := unitClks s.clksPerUs
    let q := coilPeriod s.clksPerUs d
    s.NoReset (iterationClocks s.clksPerUs n d) →
    (s.ticks 1).phase = .dispatch ∧
    (∀ j < 8 * n, (s.ticks (2 + j * q)).coilStb = true ∧ (s.ticks (2 + j * q)).idx.toNat = j % 8 ∧
      (s.ticks (2 + j * q)).cyclesLeft.toNat = n - j / 8 ∧
      (∀ v, 1 ≤ v → v ≤ d.toNat → (s.ticks (2 + j * q + v * u)).unitStb = true) ∧
      (s.ticks (2 + j * q + (q - 1))).phase = .next) ∧
    (s.ticks (2 + 8 * n * q)).commitStb = true ∧
    (s.ticks (3 + 8 * n * q)).phase = .snap ∧ (s.ticks (3 + 8 * n * q)).prevPosition = s.ports.targetPosition

/-- The clock level refines the event level (00_scope.md section 5): with clock numbers and registers erased, every run from a SNAP
clock without reset is a beginning of an event sequence the event level allows, for some snapshots (the event level has no
reset). -/
def Obligations.ClockLevelRefinesEventLevel : Prop :=
  ∀ (n : Nat) (s : State), s.ParamOk → s.phase = .snap → s.NoReset n →
    ∃ snaps : List (Position × Delay), s.trace n <+: engineEvents s.prevPosition snaps

/-! ## The stimulus notation (30_encoding.md section 6) -/

/-- What the statements of the notation do to the machine. RESET is one clock with `rst = 1` and the held port values. POS and DLY
change only what one port carries from the next clock on, and encode their number exactly. RUN k is k clocks, each one a step with
`rst = 0` and the held port values, so a SNAP clock among them latches those; the held values stay. UNTIL COMMIT x m is UNTIL
COMMIT m times (30_encoding.md section 6; the notation is no part of the hardware, log 11). -/
def Obligations.StimulusStatementsDriveThePorts : Prop :=
  ∀ b : Bench,
    (∃ t, step { b.machine with ports := { rst := true, targetPosition := b.target, delay := b.delay } } = .next t ∧
      t.RegistersReset ∧ t.clock = b.machine.clock + 1 ∧
      b.exec .reset = { target := b.target, delay := b.delay, machine := t }) ∧
    (∀ z, (Stmt.pos z).wellFormed = true → (b.exec (.pos z)).target.toInt = z ∧ (b.exec (.pos z)).delay = b.delay ∧
      (b.exec (.pos z)).machine = b.machine) ∧
    (∀ n, (Stmt.dly n).wellFormed = true → (b.exec (.dly n)).delay.toNat = n ∧ (b.exec (.dly n)).target = b.target ∧
      (b.exec (.dly n)).machine = b.machine) ∧
    b.exec (.run 0) = b ∧
    (∀ k, let s := (b.exec (.run k)).machine
      ∃ t, step { s with ports := { rst := false, targetPosition := b.target, delay := b.delay } } = .next t ∧
        b.exec (.run (k + 1)) = { target := b.target, delay := b.delay, machine := t } ∧
        t.clock = b.machine.clock + (k + 1) ∧
        (s.phase = .snap → t.snapPosition = b.target ∧ t.snapDelay = b.delay)) ∧
    (∀ m, b.exec (.untilCommit (m + 1)) = (b.exec (.untilCommit 1)).exec (.untilCommit m)) ∧
    (b.exec (.pos 20)).target = 0x0014#16 ∧ (b.exec (.pos (-1))).target = 0xFFFF#16 ∧ (b.exec (.dly 5)).delay = 0x0005#16

/-- UNTIL COMMIT lets clocks pass up to and including the next one with `commit_stb = 1`, from every state that meets the
invariants (30_encoding.md section 6; log 11). -/
def Obligations.UntilCommitStopsAfterTheNextCommit : Prop :=
  ∀ b : Bench, b.machine.Inv →
    ∃ k, (∀ j < k, ((Bench.runClocks j b).present false).commitStb = false) ∧
      ((Bench.runClocks k b).present false).commitStb = true ∧
      b.exec (.untilCommit 1) = Bench.runClocks (k + 1) b
end

