-- ==== Sys2Proof/Laws/State.lean ====
section
/-! SUPPORT. One lemma per field per named update of State, so that no later proof unfolds a record update. -/

namespace Sys2Proof.Machine

variable (s : State)

@[simp] theorem State.setPhase_phase (p : Phase) : (s.setPhase p).phase = p := rfl
@[simp] theorem State.setPhase_prevPosition (p : Phase) : (s.setPhase p).prevPosition = s.prevPosition := rfl
@[simp] theorem State.setPhase_snapPosition (p : Phase) : (s.setPhase p).snapPosition = s.snapPosition := rfl
@[simp] theorem State.setPhase_snapDelay (p : Phase) : (s.setPhase p).snapDelay = s.snapDelay := rfl
@[simp] theorem State.setPhase_dir (p : Phase) : (s.setPhase p).dir = s.dir := rfl
@[simp] theorem State.setPhase_cyclesLeft (p : Phase) : (s.setPhase p).cyclesLeft = s.cyclesLeft := rfl
@[simp] theorem State.setPhase_idx (p : Phase) : (s.setPhase p).idx = s.idx := rfl
@[simp] theorem State.setPhase_unitsLeft (p : Phase) : (s.setPhase p).unitsLeft = s.unitsLeft := rfl
@[simp] theorem State.setPhase_subCnt (p : Phase) : (s.setPhase p).subCnt = s.subCnt := rfl
@[simp] theorem State.setPhase_coilOut (p : Phase) : (s.setPhase p).coilOut = s.coilOut := rfl
@[simp] theorem State.setPhase_ports (p : Phase) : (s.setPhase p).ports = s.ports := rfl
@[simp] theorem State.setPhase_coming (p : Phase) : (s.setPhase p).coming = s.coming := rfl
@[simp] theorem State.setPhase_clock (p : Phase) : (s.setPhase p).clock = s.clock := rfl
@[simp] theorem State.setPhase_clksPerUs (p : Phase) : (s.setPhase p).clksPerUs = s.clksPerUs := rfl

@[simp] theorem State.setSnapshot_phase (p : Position) (d : Delay) : (s.setSnapshot p d).phase = s.phase := rfl
@[simp] theorem State.setSnapshot_prevPosition (p : Position) (d : Delay) : (s.setSnapshot p d).prevPosition = s.prevPosition := rfl
@[simp] theorem State.setSnapshot_snapPosition (p : Position) (d : Delay) : (s.setSnapshot p d).snapPosition = p := rfl
@[simp] theorem State.setSnapshot_snapDelay (p : Position) (d : Delay) : (s.setSnapshot p d).snapDelay = d := rfl
@[simp] theorem State.setSnapshot_dir (p : Position) (d : Delay) : (s.setSnapshot p d).dir = s.dir := rfl
@[simp] theorem State.setSnapshot_cyclesLeft (p : Position) (d : Delay) : (s.setSnapshot p d).cyclesLeft = s.cyclesLeft := rfl
@[simp] theorem State.setSnapshot_idx (p : Position) (d : Delay) : (s.setSnapshot p d).idx = s.idx := rfl
@[simp] theorem State.setSnapshot_unitsLeft (p : Position) (d : Delay) : (s.setSnapshot p d).unitsLeft = s.unitsLeft := rfl
@[simp] theorem State.setSnapshot_subCnt (p : Position) (d : Delay) : (s.setSnapshot p d).subCnt = s.subCnt := rfl
@[simp] theorem State.setSnapshot_coilOut (p : Position) (d : Delay) : (s.setSnapshot p d).coilOut = s.coilOut := rfl
@[simp] theorem State.setSnapshot_ports (p : Position) (d : Delay) : (s.setSnapshot p d).ports = s.ports := rfl
@[simp] theorem State.setSnapshot_coming (p : Position) (d : Delay) : (s.setSnapshot p d).coming = s.coming := rfl
@[simp] theorem State.setSnapshot_clock (p : Position) (d : Delay) : (s.setSnapshot p d).clock = s.clock := rfl
@[simp] theorem State.setSnapshot_clksPerUs (p : Position) (d : Delay) : (s.setSnapshot p d).clksPerUs = s.clksPerUs := rfl

@[simp] theorem State.setPrevPosition_phase (p : Position) : (s.setPrevPosition p).phase = s.phase := rfl
@[simp] theorem State.setPrevPosition_prevPosition (p : Position) : (s.setPrevPosition p).prevPosition = p := rfl
@[simp] theorem State.setPrevPosition_snapPosition (p : Position) : (s.setPrevPosition p).snapPosition = s.snapPosition := rfl
@[simp] theorem State.setPrevPosition_snapDelay (p : Position) : (s.setPrevPosition p).snapDelay = s.snapDelay := rfl
@[simp] theorem State.setPrevPosition_dir (p : Position) : (s.setPrevPosition p).dir = s.dir := rfl
@[simp] theorem State.setPrevPosition_cyclesLeft (p : Position) : (s.setPrevPosition p).cyclesLeft = s.cyclesLeft := rfl
@[simp] theorem State.setPrevPosition_idx (p : Position) : (s.setPrevPosition p).idx = s.idx := rfl
@[simp] theorem State.setPrevPosition_unitsLeft (p : Position) : (s.setPrevPosition p).unitsLeft = s.unitsLeft := rfl
@[simp] theorem State.setPrevPosition_subCnt (p : Position) : (s.setPrevPosition p).subCnt = s.subCnt := rfl
@[simp] theorem State.setPrevPosition_coilOut (p : Position) : (s.setPrevPosition p).coilOut = s.coilOut := rfl
@[simp] theorem State.setPrevPosition_ports (p : Position) : (s.setPrevPosition p).ports = s.ports := rfl
@[simp] theorem State.setPrevPosition_coming (p : Position) : (s.setPrevPosition p).coming = s.coming := rfl
@[simp] theorem State.setPrevPosition_clock (p : Position) : (s.setPrevPosition p).clock = s.clock := rfl
@[simp] theorem State.setPrevPosition_clksPerUs (p : Position) : (s.setPrevPosition p).clksPerUs = s.clksPerUs := rfl

@[simp] theorem State.setDir_phase (d : Direction) : (s.setDir d).phase = s.phase := rfl
@[simp] theorem State.setDir_prevPosition (d : Direction) : (s.setDir d).prevPosition = s.prevPosition := rfl
@[simp] theorem State.setDir_snapPosition (d : Direction) : (s.setDir d).snapPosition = s.snapPosition := rfl
@[simp] theorem State.setDir_snapDelay (d : Direction) : (s.setDir d).snapDelay = s.snapDelay := rfl
@[simp] theorem State.setDir_dir (d : Direction) : (s.setDir d).dir = d := rfl
@[simp] theorem State.setDir_cyclesLeft (d : Direction) : (s.setDir d).cyclesLeft = s.cyclesLeft := rfl
@[simp] theorem State.setDir_idx (d : Direction) : (s.setDir d).idx = s.idx := rfl
@[simp] theorem State.setDir_unitsLeft (d : Direction) : (s.setDir d).unitsLeft = s.unitsLeft := rfl
@[simp] theorem State.setDir_subCnt (d : Direction) : (s.setDir d).subCnt = s.subCnt := rfl
@[simp] theorem State.setDir_coilOut (d : Direction) : (s.setDir d).coilOut = s.coilOut := rfl
@[simp] theorem State.setDir_ports (d : Direction) : (s.setDir d).ports = s.ports := rfl
@[simp] theorem State.setDir_coming (d : Direction) : (s.setDir d).coming = s.coming := rfl
@[simp] theorem State.setDir_clock (d : Direction) : (s.setDir d).clock = s.clock := rfl
@[simp] theorem State.setDir_clksPerUs (d : Direction) : (s.setDir d).clksPerUs = s.clksPerUs := rfl

@[simp] theorem State.setCounter_phase (i : EntryIndex) (n : CycleCount) : (s.setCounter i n).phase = s.phase := rfl
@[simp] theorem State.setCounter_prevPosition (i : EntryIndex) (n : CycleCount) : (s.setCounter i n).prevPosition = s.prevPosition := rfl
@[simp] theorem State.setCounter_snapPosition (i : EntryIndex) (n : CycleCount) : (s.setCounter i n).snapPosition = s.snapPosition := rfl
@[simp] theorem State.setCounter_snapDelay (i : EntryIndex) (n : CycleCount) : (s.setCounter i n).snapDelay = s.snapDelay := rfl
@[simp] theorem State.setCounter_dir (i : EntryIndex) (n : CycleCount) : (s.setCounter i n).dir = s.dir := rfl
@[simp] theorem State.setCounter_cyclesLeft (i : EntryIndex) (n : CycleCount) : (s.setCounter i n).cyclesLeft = n := rfl
@[simp] theorem State.setCounter_idx (i : EntryIndex) (n : CycleCount) : (s.setCounter i n).idx = i := rfl
@[simp] theorem State.setCounter_unitsLeft (i : EntryIndex) (n : CycleCount) : (s.setCounter i n).unitsLeft = s.unitsLeft := rfl
@[simp] theorem State.setCounter_subCnt (i : EntryIndex) (n : CycleCount) : (s.setCounter i n).subCnt = s.subCnt := rfl
@[simp] theorem State.setCounter_coilOut (i : EntryIndex) (n : CycleCount) : (s.setCounter i n).coilOut = s.coilOut := rfl
@[simp] theorem State.setCounter_ports (i : EntryIndex) (n : CycleCount) : (s.setCounter i n).ports = s.ports := rfl
@[simp] theorem State.setCounter_coming (i : EntryIndex) (n : CycleCount) : (s.setCounter i n).coming = s.coming := rfl
@[simp] theorem State.setCounter_clock (i : EntryIndex) (n : CycleCount) : (s.setCounter i n).clock = s.clock := rfl
@[simp] theorem State.setCounter_clksPerUs (i : EntryIndex) (n : CycleCount) : (s.setCounter i n).clksPerUs = s.clksPerUs := rfl

@[simp] theorem State.setTimer_phase (u : Delay) (c : Nat) : (s.setTimer u c).phase = s.phase := rfl
@[simp] theorem State.setTimer_prevPosition (u : Delay) (c : Nat) : (s.setTimer u c).prevPosition = s.prevPosition := rfl
@[simp] theorem State.setTimer_snapPosition (u : Delay) (c : Nat) : (s.setTimer u c).snapPosition = s.snapPosition := rfl
@[simp] theorem State.setTimer_snapDelay (u : Delay) (c : Nat) : (s.setTimer u c).snapDelay = s.snapDelay := rfl
@[simp] theorem State.setTimer_dir (u : Delay) (c : Nat) : (s.setTimer u c).dir = s.dir := rfl
@[simp] theorem State.setTimer_cyclesLeft (u : Delay) (c : Nat) : (s.setTimer u c).cyclesLeft = s.cyclesLeft := rfl
@[simp] theorem State.setTimer_idx (u : Delay) (c : Nat) : (s.setTimer u c).idx = s.idx := rfl
@[simp] theorem State.setTimer_unitsLeft (u : Delay) (c : Nat) : (s.setTimer u c).unitsLeft = u := rfl
@[simp] theorem State.setTimer_subCnt (u : Delay) (c : Nat) : (s.setTimer u c).subCnt = c := rfl
@[simp] theorem State.setTimer_coilOut (u : Delay) (c : Nat) : (s.setTimer u c).coilOut = s.coilOut := rfl
@[simp] theorem State.setTimer_ports (u : Delay) (c : Nat) : (s.setTimer u c).ports = s.ports := rfl
@[simp] theorem State.setTimer_coming (u : Delay) (c : Nat) : (s.setTimer u c).coming = s.coming := rfl
@[simp] theorem State.setTimer_clock (u : Delay) (c : Nat) : (s.setTimer u c).clock = s.clock := rfl
@[simp] theorem State.setTimer_clksPerUs (u : Delay) (c : Nat) : (s.setTimer u c).clksPerUs = s.clksPerUs := rfl

@[simp] theorem State.setCoil_phase (v : Pattern) : (s.setCoil v).phase = s.phase := rfl
@[simp] theorem State.setCoil_prevPosition (v : Pattern) : (s.setCoil v).prevPosition = s.prevPosition := rfl
@[simp] theorem State.setCoil_snapPosition (v : Pattern) : (s.setCoil v).snapPosition = s.snapPosition := rfl
@[simp] theorem State.setCoil_snapDelay (v : Pattern) : (s.setCoil v).snapDelay = s.snapDelay := rfl
@[simp] theorem State.setCoil_dir (v : Pattern) : (s.setCoil v).dir = s.dir := rfl
@[simp] theorem State.setCoil_cyclesLeft (v : Pattern) : (s.setCoil v).cyclesLeft = s.cyclesLeft := rfl
@[simp] theorem State.setCoil_idx (v : Pattern) : (s.setCoil v).idx = s.idx := rfl
@[simp] theorem State.setCoil_unitsLeft (v : Pattern) : (s.setCoil v).unitsLeft = s.unitsLeft := rfl
@[simp] theorem State.setCoil_subCnt (v : Pattern) : (s.setCoil v).subCnt = s.subCnt := rfl
@[simp] theorem State.setCoil_coilOut (v : Pattern) : (s.setCoil v).coilOut = v := rfl
@[simp] theorem State.setCoil_ports (v : Pattern) : (s.setCoil v).ports = s.ports := rfl
@[simp] theorem State.setCoil_coming (v : Pattern) : (s.setCoil v).coming = s.coming := rfl
@[simp] theorem State.setCoil_clock (v : Pattern) : (s.setCoil v).clock = s.clock := rfl
@[simp] theorem State.setCoil_clksPerUs (v : Pattern) : (s.setCoil v).clksPerUs = s.clksPerUs := rfl

@[simp] theorem State.setRst_phase (r : Bool) : (s.setRst r).phase = s.phase := rfl
@[simp] theorem State.setRst_prevPosition (r : Bool) : (s.setRst r).prevPosition = s.prevPosition := rfl
@[simp] theorem State.setRst_snapPosition (r : Bool) : (s.setRst r).snapPosition = s.snapPosition := rfl
@[simp] theorem State.setRst_snapDelay (r : Bool) : (s.setRst r).snapDelay = s.snapDelay := rfl
@[simp] theorem State.setRst_dir (r : Bool) : (s.setRst r).dir = s.dir := rfl
@[simp] theorem State.setRst_cyclesLeft (r : Bool) : (s.setRst r).cyclesLeft = s.cyclesLeft := rfl
@[simp] theorem State.setRst_idx (r : Bool) : (s.setRst r).idx = s.idx := rfl
@[simp] theorem State.setRst_unitsLeft (r : Bool) : (s.setRst r).unitsLeft = s.unitsLeft := rfl
@[simp] theorem State.setRst_subCnt (r : Bool) : (s.setRst r).subCnt = s.subCnt := rfl
@[simp] theorem State.setRst_coilOut (r : Bool) : (s.setRst r).coilOut = s.coilOut := rfl
@[simp] theorem State.setRst_ports (r : Bool) : (s.setRst r).ports = { s.ports with rst := r } := rfl
@[simp] theorem State.setRst_coming (r : Bool) : (s.setRst r).coming = s.coming := rfl
@[simp] theorem State.setRst_clock (r : Bool) : (s.setRst r).clock = s.clock := rfl
@[simp] theorem State.setRst_clksPerUs (r : Bool) : (s.setRst r).clksPerUs = s.clksPerUs := rfl

@[simp] theorem State.clearRegisters_phase : s.clearRegisters.phase = .snap := rfl
@[simp] theorem State.clearRegisters_prevPosition : s.clearRegisters.prevPosition = 0#16 := rfl
@[simp] theorem State.clearRegisters_snapPosition : s.clearRegisters.snapPosition = 0#16 := rfl
@[simp] theorem State.clearRegisters_snapDelay : s.clearRegisters.snapDelay = 0#16 := rfl
@[simp] theorem State.clearRegisters_dir : s.clearRegisters.dir = 0#1 := rfl
@[simp] theorem State.clearRegisters_cyclesLeft : s.clearRegisters.cyclesLeft = 0#16 := rfl
@[simp] theorem State.clearRegisters_idx : s.clearRegisters.idx = 0#3 := rfl
@[simp] theorem State.clearRegisters_unitsLeft : s.clearRegisters.unitsLeft = 0#16 := rfl
@[simp] theorem State.clearRegisters_subCnt : s.clearRegisters.subCnt = 0 := rfl
@[simp] theorem State.clearRegisters_coilOut : s.clearRegisters.coilOut = 0#8 := rfl
@[simp] theorem State.clearRegisters_ports : s.clearRegisters.ports = s.ports := rfl
@[simp] theorem State.clearRegisters_coming : s.clearRegisters.coming = s.coming := rfl
@[simp] theorem State.clearRegisters_clock : s.clearRegisters.clock = s.clock := rfl
@[simp] theorem State.clearRegisters_clksPerUs : s.clearRegisters.clksPerUs = s.clksPerUs := rfl

@[simp] theorem State.nextInputs_phase : s.nextInputs.phase = s.phase := rfl
@[simp] theorem State.nextInputs_prevPosition : s.nextInputs.prevPosition = s.prevPosition := rfl
@[simp] theorem State.nextInputs_snapPosition : s.nextInputs.snapPosition = s.snapPosition := rfl
@[simp] theorem State.nextInputs_snapDelay : s.nextInputs.snapDelay = s.snapDelay := rfl
@[simp] theorem State.nextInputs_dir : s.nextInputs.dir = s.dir := rfl
@[simp] theorem State.nextInputs_cyclesLeft : s.nextInputs.cyclesLeft = s.cyclesLeft := rfl
@[simp] theorem State.nextInputs_idx : s.nextInputs.idx = s.idx := rfl
@[simp] theorem State.nextInputs_unitsLeft : s.nextInputs.unitsLeft = s.unitsLeft := rfl
@[simp] theorem State.nextInputs_subCnt : s.nextInputs.subCnt = s.subCnt := rfl
@[simp] theorem State.nextInputs_coilOut : s.nextInputs.coilOut = s.coilOut := rfl
@[simp] theorem State.nextInputs_ports : s.nextInputs.ports = s.inputAt 1 := rfl
@[simp] theorem State.nextInputs_coming : s.nextInputs.coming = s.coming.tail := rfl
@[simp] theorem State.nextInputs_clock : s.nextInputs.clock = s.clock + 1 := rfl
@[simp] theorem State.nextInputs_clksPerUs : s.nextInputs.clksPerUs = s.clksPerUs := rfl

end Sys2Proof.Machine
end

