-- ==== Sys2Proof/Laws/Operands.lean ====
section
/-! SUPPORT. What the operand and timer functions compute: the width of sub_cnt, the range of delta, the cycle count,
the counters' decrements. -/

namespace Sys2Proof.Machine

/-- A unit's clocks fit the register that counts them: UNIT_CLKS <= 2^SUB_W. -/
theorem units_le_two_pow_subWidth (u : Nat) : u ≤ 2 ^ subWidth u := by
  have h : u - 1 < 2 ^ (Nat.log2 (u - 1) + 1) := Nat.lt_log2_self
  unfold subWidth
  omega

/-- Below the last clock of a unit the increment of sub_cnt does not wrap. -/
theorem subCntPlusOne_eq {c k : Nat} (h : k < unitClks c - 1) : subCntPlusOne c k = k + 1 := by
  have := units_le_two_pow_subWidth (unitClks c)
  exact Nat.mod_eq_of_lt (by omega)

theorem subCntPlusOne_lt (c k : Nat) : subCntPlusOne c k < 2 ^ subWidth (unitClks c) := Nat.mod_lt _ (Nat.two_pow_pos _)

theorem unitClks_pos {c : Nat} (h : 1 ≤ c) : 10 ≤ unitClks c := by
  unfold unitClks Config.usPerUnit
  omega

theorem position_toInt_bounds (p : Position) : -32768 ≤ p.toInt ∧ p.toInt ≤ 32767 := by
  have h := BitVec.toInt_lt (x := p)
  have h' := BitVec.le_toInt (x := p)
  norm_num at h h'
  omega

theorem deltaOf_bounds (p q : Position) : -65535 ≤ deltaOf p q ∧ deltaOf p q ≤ 65535 := by
  have hp := position_toInt_bounds p
  have hq := position_toInt_bounds q
  unfold deltaOf
  omega

theorem cyclesOf_toNat {d : Int} (h : d.natAbs ≤ 65535) : (cyclesOf d).toNat = d.natAbs := by
  simp only [cyclesOf, BitVec.toNat_ofNat]
  omega

theorem deltaIsZero_iff (s : State) : s.deltaIsZero = true ↔ s.snapPosition.toInt = s.prevPosition.toInt := by
  simp only [State.deltaIsZero, State.delta, deltaOf, beq_iff_eq]
  omega

/-- A decrement of a 16-bit register that is not 0 does not wrap. -/
theorem toNat_sub_one {x : BitVec 16} (h : 1 ≤ x.toNat) : (x - 1#16).toNat = x.toNat - 1 := by
  have := x.isLt
  simp only [BitVec.toNat_sub, BitVec.toNat_ofNat]
  omega

theorem eq_one_iff (x : BitVec 16) : x = 1#16 ↔ x.toNat = 1 :=
  ⟨fun h => by rw [h]; rfl, fun h => BitVec.eq_of_toNat_eq (by simpa using h)⟩

theorem eq_zero_iff (x : BitVec 16) : x = 0#16 ↔ x.toNat = 0 :=
  ⟨fun h => by rw [h]; rfl, fun h => BitVec.eq_of_toNat_eq (by simpa using h)⟩

end Sys2Proof.Machine
end

