-- ==== Sys2Proof/Laws/Ops.lean ====
section
/-! SUPPORT. What each shared update of the operations leaves in every field: the coil write of EMIT and the ROM rows, the start
of a move, the two branches of NEXT and of HOLD. -/

namespace Sys2Proof.Machine

variable (s : State)

@[simp] theorem State.coilWrite_phase (v : Pattern) : (s.coilWrite v).phase = (if s.delayIsZero then .next else .hold) := rfl
@[simp] theorem State.coilWrite_prevPosition (v : Pattern) : (s.coilWrite v).prevPosition = s.prevPosition := rfl
@[simp] theorem State.coilWrite_snapPosition (v : Pattern) : (s.coilWrite v).snapPosition = s.snapPosition := rfl
@[simp] theorem State.coilWrite_snapDelay (v : Pattern) : (s.coilWrite v).snapDelay = s.snapDelay := rfl
@[simp] theorem State.coilWrite_dir (v : Pattern) : (s.coilWrite v).dir = s.dir := rfl
@[simp] theorem State.coilWrite_cyclesLeft (v : Pattern) : (s.coilWrite v).cyclesLeft = s.cyclesLeft := rfl
@[simp] theorem State.coilWrite_idx (v : Pattern) : (s.coilWrite v).idx = s.idx := rfl
@[simp] theorem State.coilWrite_unitsLeft (v : Pattern) : (s.coilWrite v).unitsLeft = s.snapDelay := rfl
@[simp] theorem State.coilWrite_subCnt (v : Pattern) : (s.coilWrite v).subCnt = 0 := rfl
@[simp] theorem State.coilWrite_coilOut (v : Pattern) : (s.coilWrite v).coilOut = v := rfl
@[simp] theorem State.coilWrite_ports (v : Pattern) : (s.coilWrite v).ports = s.ports := rfl
@[simp] theorem State.coilWrite_coming (v : Pattern) : (s.coilWrite v).coming = s.coming := rfl
@[simp] theorem State.coilWrite_clock (v : Pattern) : (s.coilWrite v).clock = s.clock := rfl
@[simp] theorem State.coilWrite_clksPerUs (v : Pattern) : (s.coilWrite v).clksPerUs = s.clksPerUs := rfl

@[simp] theorem State.startMove_phase : s.startMove.phase = .emit := rfl
@[simp] theorem State.startMove_prevPosition : s.startMove.prevPosition = s.prevPosition := rfl
@[simp] theorem State.startMove_snapPosition : s.startMove.snapPosition = s.snapPosition := rfl
@[simp] theorem State.startMove_snapDelay : s.startMove.snapDelay = s.snapDelay := rfl
@[simp] theorem State.startMove_dir : s.startMove.dir = directionOf s.delta := rfl
@[simp] theorem State.startMove_cyclesLeft : s.startMove.cyclesLeft = cyclesOf s.delta := rfl
@[simp] theorem State.startMove_idx : s.startMove.idx = 0#3 := rfl
@[simp] theorem State.startMove_unitsLeft : s.startMove.unitsLeft = s.unitsLeft := rfl
@[simp] theorem State.startMove_subCnt : s.startMove.subCnt = s.subCnt := rfl
@[simp] theorem State.startMove_coilOut : s.startMove.coilOut = s.coilOut := rfl
@[simp] theorem State.startMove_ports : s.startMove.ports = s.ports := rfl
@[simp] theorem State.startMove_coming : s.startMove.coming = s.coming := rfl
@[simp] theorem State.startMove_clock : s.startMove.clock = s.clock := rfl
@[simp] theorem State.startMove_clksPerUs : s.startMove.clksPerUs = s.clksPerUs := rfl

@[simp] theorem State.nextEntry_phase : s.nextEntry.phase = .emit := rfl
@[simp] theorem State.nextEntry_prevPosition : s.nextEntry.prevPosition = s.prevPosition := rfl
@[simp] theorem State.nextEntry_snapPosition : s.nextEntry.snapPosition = s.snapPosition := rfl
@[simp] theorem State.nextEntry_snapDelay : s.nextEntry.snapDelay = s.snapDelay := rfl
@[simp] theorem State.nextEntry_dir : s.nextEntry.dir = s.dir := rfl
@[simp] theorem State.nextEntry_cyclesLeft : s.nextEntry.cyclesLeft = s.cyclesLeft := rfl
@[simp] theorem State.nextEntry_idx : s.nextEntry.idx = s.idx + 1#3 := rfl
@[simp] theorem State.nextEntry_unitsLeft : s.nextEntry.unitsLeft = s.unitsLeft := rfl
@[simp] theorem State.nextEntry_subCnt : s.nextEntry.subCnt = s.subCnt := rfl
@[simp] theorem State.nextEntry_coilOut : s.nextEntry.coilOut = s.coilOut := rfl
@[simp] theorem State.nextEntry_ports : s.nextEntry.ports = s.ports := rfl
@[simp] theorem State.nextEntry_coming : s.nextEntry.coming = s.coming := rfl
@[simp] theorem State.nextEntry_clock : s.nextEntry.clock = s.clock := rfl
@[simp] theorem State.nextEntry_clksPerUs : s.nextEntry.clksPerUs = s.clksPerUs := rfl

@[simp] theorem State.nextCycle_phase : s.nextCycle.phase = (if s.lastCycle then .commit else .emit) := rfl
@[simp] theorem State.nextCycle_prevPosition : s.nextCycle.prevPosition = s.prevPosition := rfl
@[simp] theorem State.nextCycle_snapPosition : s.nextCycle.snapPosition = s.snapPosition := rfl
@[simp] theorem State.nextCycle_snapDelay : s.nextCycle.snapDelay = s.snapDelay := rfl
@[simp] theorem State.nextCycle_dir : s.nextCycle.dir = s.dir := rfl
@[simp] theorem State.nextCycle_cyclesLeft : s.nextCycle.cyclesLeft = s.cyclesLeft - 1#16 := rfl
@[simp] theorem State.nextCycle_idx : s.nextCycle.idx = 0#3 := rfl
@[simp] theorem State.nextCycle_unitsLeft : s.nextCycle.unitsLeft = s.unitsLeft := rfl
@[simp] theorem State.nextCycle_subCnt : s.nextCycle.subCnt = s.subCnt := rfl
@[simp] theorem State.nextCycle_coilOut : s.nextCycle.coilOut = s.coilOut := rfl
@[simp] theorem State.nextCycle_ports : s.nextCycle.ports = s.ports := rfl
@[simp] theorem State.nextCycle_coming : s.nextCycle.coming = s.coming := rfl
@[simp] theorem State.nextCycle_clock : s.nextCycle.clock = s.clock := rfl
@[simp] theorem State.nextCycle_clksPerUs : s.nextCycle.clksPerUs = s.clksPerUs := rfl

@[simp] theorem State.completeUnit_phase : s.completeUnit.phase = (if s.lastUnit then .next else .hold) := rfl
@[simp] theorem State.completeUnit_prevPosition : s.completeUnit.prevPosition = s.prevPosition := rfl
@[simp] theorem State.completeUnit_snapPosition : s.completeUnit.snapPosition = s.snapPosition := rfl
@[simp] theorem State.completeUnit_snapDelay : s.completeUnit.snapDelay = s.snapDelay := rfl
@[simp] theorem State.completeUnit_dir : s.completeUnit.dir = s.dir := rfl
@[simp] theorem State.completeUnit_cyclesLeft : s.completeUnit.cyclesLeft = s.cyclesLeft := rfl
@[simp] theorem State.completeUnit_idx : s.completeUnit.idx = s.idx := rfl
@[simp] theorem State.completeUnit_unitsLeft : s.completeUnit.unitsLeft = s.unitsLeft - 1#16 := rfl
@[simp] theorem State.completeUnit_subCnt : s.completeUnit.subCnt = 0 := rfl
@[simp] theorem State.completeUnit_coilOut : s.completeUnit.coilOut = s.coilOut := rfl
@[simp] theorem State.completeUnit_ports : s.completeUnit.ports = s.ports := rfl
@[simp] theorem State.completeUnit_coming : s.completeUnit.coming = s.coming := rfl
@[simp] theorem State.completeUnit_clock : s.completeUnit.clock = s.clock := rfl
@[simp] theorem State.completeUnit_clksPerUs : s.completeUnit.clksPerUs = s.clksPerUs := rfl

@[simp] theorem State.countClock_phase : s.countClock.phase = s.phase := rfl
@[simp] theorem State.countClock_prevPosition : s.countClock.prevPosition = s.prevPosition := rfl
@[simp] theorem State.countClock_snapPosition : s.countClock.snapPosition = s.snapPosition := rfl
@[simp] theorem State.countClock_snapDelay : s.countClock.snapDelay = s.snapDelay := rfl
@[simp] theorem State.countClock_dir : s.countClock.dir = s.dir := rfl
@[simp] theorem State.countClock_cyclesLeft : s.countClock.cyclesLeft = s.cyclesLeft := rfl
@[simp] theorem State.countClock_idx : s.countClock.idx = s.idx := rfl
@[simp] theorem State.countClock_unitsLeft : s.countClock.unitsLeft = s.unitsLeft := rfl
@[simp] theorem State.countClock_subCnt : s.countClock.subCnt = subCntPlusOne s.clksPerUs s.subCnt := rfl
@[simp] theorem State.countClock_coilOut : s.countClock.coilOut = s.coilOut := rfl
@[simp] theorem State.countClock_ports : s.countClock.ports = s.ports := rfl
@[simp] theorem State.countClock_coming : s.countClock.coming = s.coming := rfl
@[simp] theorem State.countClock_clock : s.countClock.clock = s.clock := rfl
@[simp] theorem State.countClock_clksPerUs : s.countClock.clksPerUs = s.clksPerUs := rfl

end Sys2Proof.Machine
end

