-- ==== Sys2Proof/Laws/PerInstr.lean ====
section
/-! SUPPORT. Statements about every instruction as syntax, one lemma per constructor. -/

namespace Sys2Proof.Laws.EncodingFits

/-- The code of a row is well-formed: it fits its carrier and is none of the codes that name nothing. -/
def Statement (i : Instr) : Prop := i.wellFormed = true ∧ (encode i).wellFormed = true

theorem snap : Statement .snap := ⟨rfl, rfl⟩
theorem dispatch : Statement .dispatch := ⟨rfl, rfl⟩
theorem emit : Statement .emit := ⟨rfl, rfl⟩
theorem hold : Statement .hold := ⟨rfl, rfl⟩
theorem next : Statement .next := ⟨rfl, rfl⟩
theorem commit : Statement .commit := ⟨rfl, rfl⟩
theorem reset : Statement .reset := ⟨rfl, rfl⟩
theorem cw0 : Statement .cw0 := ⟨rfl, rfl⟩
theorem cw1 : Statement .cw1 := ⟨rfl, rfl⟩
theorem cw2 : Statement .cw2 := ⟨rfl, rfl⟩
theorem cw3 : Statement .cw3 := ⟨rfl, rfl⟩
theorem cw4 : Statement .cw4 := ⟨rfl, rfl⟩
theorem cw5 : Statement .cw5 := ⟨rfl, rfl⟩
theorem cw6 : Statement .cw6 := ⟨rfl, rfl⟩
theorem cw7 : Statement .cw7 := ⟨rfl, rfl⟩
theorem ccw0 : Statement .ccw0 := ⟨rfl, rfl⟩
theorem ccw1 : Statement .ccw1 := ⟨rfl, rfl⟩
theorem ccw2 : Statement .ccw2 := ⟨rfl, rfl⟩
theorem ccw3 : Statement .ccw3 := ⟨rfl, rfl⟩
theorem ccw4 : Statement .ccw4 := ⟨rfl, rfl⟩
theorem ccw5 : Statement .ccw5 := ⟨rfl, rfl⟩
theorem ccw6 : Statement .ccw6 := ⟨rfl, rfl⟩
theorem ccw7 : Statement .ccw7 := ⟨rfl, rfl⟩

end Sys2Proof.Laws.EncodingFits
end

