-- ==== Sys2Proof/Laws/Step.lean ====
section
/-! SUPPORT. What one clock does, said once: one equation of tick per phase and one for reset; how the inputs move; and how runs
and traces compose. Later proofs cite these and unfold neither step nor exec. -/

namespace Sys2Proof.Machine

/-- step answers the tick, in every state. -/
theorem step_eq_tick (s : State) : step s = .next s.tick := by
  cases hr : s.ports.rst <;> cases hp : s.phase <;>
    simp [State.tick, step, State.operation, hr, hp, Phase.instr, exec, execReset, execSnap, execDispatch, execEmit, execHold,
      execNext, execCommit]

theorem tick_of_step {s t : State} (h : step s = .next t) : t = s.tick := by
  rw [step_eq_tick] at h
  exact (Host.Outcome.next.inj h).symm

theorem tick_reset {s : State} (hr : s.ports.rst = true) : s.tick = s.clearRegisters.nextInputs := by
  simp [State.tick, step, State.operation, hr, exec, execReset]

theorem tick_snap {s : State} (hr : s.ports.rst = false) (hp : s.phase = .snap) :
    s.tick = ((s.setSnapshot s.ports.targetPosition s.ports.delay).setPhase .dispatch).nextInputs := by
  simp [State.tick, step, State.operation, hr, hp, Phase.instr, exec, execSnap]

theorem tick_dispatch {s : State} (hr : s.ports.rst = false) (hp : s.phase = .dispatch) :
    s.tick = (if s.deltaIsZero then s.setPhase .commit else s.startMove).nextInputs := by
  simp [State.tick, step, State.operation, hr, hp, Phase.instr, exec, execDispatch]

theorem tick_emit {s : State} (hr : s.ports.rst = false) (hp : s.phase = .emit) :
    s.tick = (s.coilWrite s.currentEntry).nextInputs := by
  simp [State.tick, step, State.operation, hr, hp, Phase.instr, exec, execEmit]

theorem tick_hold {s : State} (hr : s.ports.rst = false) (hp : s.phase = .hold) :
    s.tick = (if s.unitEnds then s.completeUnit else s.countClock).nextInputs := by
  simp [State.tick, step, State.operation, hr, hp, Phase.instr, exec, execHold]

theorem tick_next {s : State} (hr : s.ports.rst = false) (hp : s.phase = .next) :
    s.tick = (if s.lastEntry then s.nextCycle else s.nextEntry).nextInputs := by
  simp [State.tick, step, State.operation, hr, hp, Phase.instr, exec, execNext]

theorem tick_commit {s : State} (hr : s.ports.rst = false) (hp : s.phase = .commit) :
    s.tick = ((s.setPrevPosition s.snapPosition).setPhase .snap).nextInputs := by
  simp [State.tick, step, State.operation, hr, hp, Phase.instr, exec, execCommit]

/-- Every operation leaves the inputs, the clock number and the parameter alone. -/
theorem exec_sameInputs {i : Instr} {s t : State} (h : exec i s = .next t) : s.SameInputs t := by
  cases i <;> simp only [exec, execReset, execSnap, execDispatch, execEmit, execHold, execNext, execCommit, execCw0, execCw1,
    execCw2, execCw3, execCw4, execCw5, execCw6, execCw7, execCcw0, execCcw1, execCcw2, execCcw3, execCcw4, execCcw5, execCcw6,
    execCcw7, Host.Outcome.next.injEq] at h <;> subst h <;> (try split) <;>
    simp [State.SameInputs, State.coilWrite, State.startMove, State.completeUnit, State.countClock, State.nextEntry, State.nextCycle]

/-- After one clock the inputs have moved on by one. -/
theorem tick_inputs (s : State) :
    s.tick.ports = s.inputAt 1 ∧ s.tick.coming = s.coming.tail ∧ s.tick.clock = s.clock + 1 ∧ s.tick.clksPerUs = s.clksPerUs := by
  have h := step_eq_tick s
  unfold step at h
  split at h
  · rename_i t ht
    obtain ⟨hp, hc, hk, hu⟩ := exec_sameInputs ht
    simp only [Host.Outcome.next.injEq] at h
    rw [← h]
    simp [State.inputAt, hc, hk, hu]
  · cases h
  · cases h

@[simp] theorem tick_clksPerUs (s : State) : s.tick.clksPerUs = s.clksPerUs := (tick_inputs s).2.2.2
@[simp] theorem tick_clock (s : State) : s.tick.clock = s.clock + 1 := (tick_inputs s).2.2.1
@[simp] theorem tick_ports (s : State) : s.tick.ports = s.inputAt 1 := (tick_inputs s).1

theorem inputAt_tick (s : State) (j : Nat) : s.tick.inputAt j = s.inputAt (j + 1) := by
  obtain ⟨-, hc, hk, -⟩ := tick_inputs s
  cases j with
  | zero => simp [State.inputAt]
  | succ j =>
    have e : s.clock + 1 + (j + 1) = s.clock + (j + 1 + 1) := by omega
    simp only [State.inputAt, hc, hk, e]
    cases s.coming <;> simp

theorem ticks_succ' (k : Nat) (s : State) : s.ticks (k + 1) = (s.ticks k).tick := by
  induction k generalizing s with
  | zero => rfl
  | succ k ih => exact ih s.tick

theorem ticks_add (k m : Nat) (s : State) : s.ticks (k + m) = (s.ticks k).ticks m := by
  induction k generalizing s with
  | zero => simp [State.ticks]
  | succ k ih => rw [Nat.succ_add]; exact ih s.tick

theorem trace_add (k m : Nat) (s : State) : s.trace (k + m) = s.trace k ++ (s.ticks k).trace m := by
  induction k generalizing s with
  | zero => simp [State.ticks, State.trace]
  | succ k ih => rw [Nat.succ_add]; simp [State.trace, State.ticks, ih]

@[simp] theorem ticks_clksPerUs (k : Nat) (s : State) : (s.ticks k).clksPerUs = s.clksPerUs := by
  induction k generalizing s with
  | zero => rfl
  | succ k ih => simp [State.ticks, ih]

theorem noReset_now {s : State} {n : Nat} (h : s.NoReset (n + 1)) : s.ports.rst = false := h 0 (by omega)

theorem noReset_tick {s : State} {n : Nat} (h : s.NoReset (n + 1)) : s.tick.NoReset n := by
  intro j hj
  rw [inputAt_tick]
  exact h (j + 1) (by omega)

theorem noReset_mono {s : State} {n m : Nat} (h : s.NoReset n) (hm : m ≤ n) : s.NoReset m := fun j hj => h j (by omega)

theorem targetHeld_tick {s : State} {p : Position} {n : Nat} (h : s.TargetHeld p (n + 1)) : s.tick.TargetHeld p n := by
  intro j hj
  rw [inputAt_tick]
  exact h (j + 1) (by omega)

theorem noReset_ticks {s : State} {n m k : Nat} (h : s.NoReset n) (hk : m + k ≤ n) : (s.ticks m).NoReset k := by
  induction m generalizing s n with
  | zero => exact noReset_mono h (by omega)
  | succ m ih =>
    obtain ⟨n, rfl⟩ : ∃ i, n = i + 1 := ⟨n - 1, by omega⟩
    exact ih (noReset_tick h) (by omega)

end Sys2Proof.Machine
end

