-- ==== Sys2Proof/Tests/Slice0.lean ====
section
/-! SUPPORT. Tests: the smoke test of WellFormed, the decoding of every row, one-step vectors of 95_test_vectors.md part 2, and for
every statement of the certificate that has hypotheses a witness that meets them. -/

namespace Sys2Proof.Tests

open Sys2Proof.Machine

/-! ## WellFormed: an ill-formed term for each check -/

theorem test_wf_phase_too_wide : Code.wellFormed ⟨.phase, 8⟩ = false := by decide
theorem test_wf_phase_six_unused : Code.wellFormed ⟨.phase, 6⟩ = false := by decide
theorem test_wf_phase_seven_unused : Code.wellFormed ⟨.phase, 7⟩ = false := by decide
theorem test_wf_rst_zero_requests_nothing : Code.wellFormed ⟨.rst, 0⟩ = false := by decide
theorem test_wf_rst_too_wide : Code.wellFormed ⟨.rst, 2⟩ = false := by decide
theorem test_wf_rom_too_wide : Code.wellFormed ⟨.rom, 16⟩ = false := by decide
theorem test_wf_pos_too_high : (Stmt.pos 32768).wellFormed = false := by decide
theorem test_wf_pos_too_low : (Stmt.pos (-32769)).wellFormed = false := by decide
theorem test_wf_dly_too_high : (Stmt.dly 65536).wellFormed = false := by decide
theorem test_wf_accepts_the_largest_codes :
    Code.wellFormed ⟨.phase, 5⟩ = true ∧ Code.wellFormed ⟨.rst, 1⟩ = true ∧ Code.wellFormed ⟨.rom, 15⟩ = true := by decide

/-! ## Decoding, from the words of 30_encoding.md sections 2 and 4 and 20_memory.md section 3 -/

theorem test_decode_phase :
    decode ⟨.phase, 0b000⟩ = .ok .snap ∧ decode ⟨.phase, 0b001⟩ = .ok .dispatch ∧ decode ⟨.phase, 0b010⟩ = .ok .emit ∧
    decode ⟨.phase, 0b011⟩ = .ok .hold ∧ decode ⟨.phase, 0b100⟩ = .ok .next ∧ decode ⟨.phase, 0b101⟩ = .ok .commit := by decide
theorem test_decode_rst : decode ⟨.rst, 0b1⟩ = .ok .reset := by decide
theorem test_decode_rom_cw :
    decode ⟨.rom, 0b0000⟩ = .ok .cw0 ∧ decode ⟨.rom, 0b0001⟩ = .ok .cw1 ∧ decode ⟨.rom, 0b0010⟩ = .ok .cw2 ∧
    decode ⟨.rom, 0b0011⟩ = .ok .cw3 ∧ decode ⟨.rom, 0b0100⟩ = .ok .cw4 ∧ decode ⟨.rom, 0b0101⟩ = .ok .cw5 ∧
    decode ⟨.rom, 0b0110⟩ = .ok .cw6 ∧ decode ⟨.rom, 0b0111⟩ = .ok .cw7 := by decide
theorem test_decode_rom_ccw :
    decode ⟨.rom, 0b1000⟩ = .ok .ccw0 ∧ decode ⟨.rom, 0b1001⟩ = .ok .ccw1 ∧ decode ⟨.rom, 0b1010⟩ = .ok .ccw2 ∧
    decode ⟨.rom, 0b1011⟩ = .ok .ccw3 ∧ decode ⟨.rom, 0b1100⟩ = .ok .ccw4 ∧ decode ⟨.rom, 0b1101⟩ = .ok .ccw5 ∧
    decode ⟨.rom, 0b1110⟩ = .ok .ccw6 ∧ decode ⟨.rom, 0b1111⟩ = .ok .ccw7 := by decide
theorem test_decode_rejects_by_name :
    decode ⟨.phase, 0b110⟩ = .rejected .unusedPhaseCode ∧ decode ⟨.phase, 0b111⟩ = .rejected .unusedPhaseCode ∧
    decode ⟨.rst, 0b0⟩ = .rejected .noResetRequested ∧ decode ⟨.rom, 0b10000⟩ = .rejected .tooWide ∧
    decode ⟨.phase, 0b1000⟩ = .rejected .tooWide ∧ decode ⟨.rst, 0b10⟩ = .rejected .tooWide := by decide
theorem test_table_word_by_exact_width :
    decodeTableWord 3 0x5 = some .commit ∧ decodeTableWord 1 0x1 = some .reset ∧ decodeTableWord 4 0x5 = some .cw5 ∧
    decodeTableWord 3 0x6 = none := by decide
theorem test_table_word_in_a_byte :
    decodeTableWord 8 0x5 = some .commit ∧ decodeTableWord 8 0x6 = some .cw6 ∧ decodeTableWord 8 0xF = some .ccw7 ∧
    decodeTableWord 8 0x10 = none := by decide

/-! ## States to try -/

/-- A state from the ten registers in the order of 95_test_vectors.md, CLKS_PER_US = 1, the ports at 0 now and for 40 clocks. -/
def st (phase : Phase) (prev snap : Position) (delay : Delay) (dir : Direction) (cycles : CycleCount) (idx : EntryIndex)
    (units : Delay) (sub : Nat) (coil : Pattern) : State where
  phase := phase
  prevPosition := prev
  snapPosition := snap
  snapDelay := delay
  dir := dir
  cyclesLeft := cycles
  idx := idx
  unitsLeft := units
  subCnt := sub
  coilOut := coil
  ports := { rst := false, targetPosition := 0#16, delay := 0#16 }
  coming := List.replicate 40 { rst := false, targetPosition := 0#16, delay := 0#16 }
  clock := 0
  clksPerUs := 1

/-- The same state with other values on the two ports, now and for n clocks. -/
def holding (s : State) (p : Position) (d : Delay) (n : Nat) : State :=
  { s with ports := { rst := false, targetPosition := p, delay := d }
           coming := List.replicate n { rst := false, targetPosition := p, delay := d } }

/-- The same state with `rst = 1` now and for n clocks, then 0. -/
def resetting (s : State) (n : Nat) : State :=
  { s with ports := { s.ports with rst := true }
           coming := List.replicate n { s.ports with rst := true } ++ s.coming }

/-- T-RST-1's state: the second unit of a hold. -/
def inHold : State := st .hold 0 3 2 0 3 1 2 5 0x03

/-- A state at rest at position 7 after a clockwise move. -/
def atRest (phase : Phase) : State := st phase 7 7 0 0 0 0 0 0 0x09

/-- T-RST-6's state: the first coil write after reset. -/
def firstWrite : State := st .emit 0 1 0 0 1 0 0 0 0x00

/-! ## One step -/

theorem test_snap_takes_the_bits_both_ways :
    (holding (st .snap 0 0 0 0 0 0 0 0 0) 0x8000 0x8000 1).tick.snapPosition.toInt = -32768 ∧
    (holding (st .snap 0 0 0 0 0 0 0 0 0) 0x8000 0x8000 1).tick.snapDelay.toNat = 32768 := by decide
/-- T-SNP-6: the port changes at the edge that ends the clock. -/
theorem test_snap_takes_the_value_before_the_edge :
    ({ st .snap 0 0 0 0 0 0 0 0 0 with
        ports := ⟨false, 0x0001#16, 0x0000#16⟩, coming := [⟨false, 0x0002#16, 0x0000#16⟩] } : State).tick.snapPosition = 0x0001#16 := by
  decide
/-- T-DLT-8. -/
theorem test_dispatch_does_not_wrap :
    (st .dispatch 0x7FFF 0x8000 0 0 0 3 0 0 0).tick = (st .dispatch 0x7FFF 0x8000 0 1 0xFFFF 0 0 0 0 |>.setPhase .emit).nextInputs := by decide
/-- T-DLT-16. -/
theorem test_dispatch_zero_delta_keeps_the_counter :
    (st .dispatch 0x64 0x64 0 1 4 3 0 0 0).tick = (st .commit 0x64 0x64 0 1 4 3 0 0 0).nextInputs := by decide
/-- T-EMT-3. -/
theorem test_emit_loads_the_timer :
    (st .emit 0 1 5 0 1 3 7 7 0).tick = (st .hold 0 1 5 0 1 3 5 0 0x06).nextInputs := by decide
/-- T-EMT-0 to T-EMT-15: the patterns, in address order. -/
theorem test_emit_reads_the_rom :
    ((List.finRange 16).map fun a => (st .emit 0 1 0 (BitVec.ofNat 1 (a.val / 8)) 1 (BitVec.ofNat 3 a.val) 0 0 0).tick.coilOut) =
      [0x01#8, 0x03#8, 0x02#8, 0x06#8, 0x04#8, 0x0C#8, 0x08#8, 0x09#8,
       0x09#8, 0x08#8, 0x0C#8, 0x04#8, 0x06#8, 0x02#8, 0x03#8, 0x01#8] := by decide
/-- T-HLD-6 and T-HLD-4. -/
theorem test_hold_ends_with_the_last_unit :
    (st .hold 0 1 2 0 1 0 1 9 1).tick = (st .next 0 1 2 0 1 0 0 0 1).nextInputs ∧
    (st .hold 0 1 2 0 1 0 2 9 1).tick = (st .hold 0 1 2 0 1 0 1 0 1).nextInputs := by decide
/-- T-HLD-8: at CLKS_PER_US = 2 a unit has 20 clocks. -/
theorem test_hold_counts_twenty_clocks :
    ({ st .hold 0 1 2 0 1 0 1 9 1 with clksPerUs := 2 } : State).tick.subCnt = 10 := by decide
/-- T-NXT-5 and T-NXT-8. -/
theorem test_next_after_the_eighth_entry :
    (st .next 0 1 0 0 1 7 0 0 9).tick = (st .commit 0 1 0 0 0 0 0 0 9).nextInputs ∧
    (st .next 0 1 0 0 0 7 0 0 9).tick = (st .emit 0 1 0 0 0xFFFF 0 0 0 9).nextInputs := by decide
/-- T-NXT-6. -/
theorem test_next_does_not_end_early :
    (st .next 0 1 0 0 1 3 0 0 6).tick = (st .emit 0 1 0 0 1 4 0 0 6).nextInputs := by decide
/-- T-CMT-5: the port is not read. -/
theorem test_commit_takes_the_snapshot :
    (holding (st .commit 0x0005 0x0005 0 0 0 0 0 0 9) 0x0009 0 1).tick.prevPosition = 0x0005#16 := by decide
/-- T-CMT-4. -/
theorem test_commit_writes_the_position :
    (st .commit 0x8000 0x7FFF 0 0 0 0 0 0 9).tick = (st .snap 0x7FFF 0x7FFF 0 0 0 0 0 0 9).nextInputs := by decide
/-- T-RST-2. -/
theorem test_reset_beats_commit :
    (resetting (st .commit 7 9 4 0 0 0 0 0 0x09) 0).tick.RegistersReset ∧
    (resetting (st .commit 7 9 4 0 0 0 0 0 0x09) 0).commitStb = false := by decide
/-- T-RST-6. -/
theorem test_reset_beats_emit : (resetting firstWrite 0).tick.RegistersReset ∧ (resetting firstWrite 0).coilStb = false := by decide
/-- T-EMT-4 to T-EMT-7 and T-EMT-0 to T-EMT-3, as ROM rows. -/
theorem test_rom_rows_cw :
    [exec .cw0 inHold, exec .cw1 inHold, exec .cw2 inHold, exec .cw3 inHold, exec .cw4 inHold, exec .cw5 inHold, exec .cw6 inHold,
     exec .cw7 inHold] =
      [0x01#8, 0x03#8, 0x02#8, 0x06#8, 0x04#8, 0x0C#8, 0x08#8, 0x09#8].map fun v =>
        .next { inHold with coilOut := v, unitsLeft := 2, subCnt := 0, phase := .hold } := by rfl
/-- T-EMT-8 to T-EMT-15, as ROM rows. -/
theorem test_rom_rows_ccw :
    [exec .ccw0 firstWrite, exec .ccw1 firstWrite, exec .ccw2 firstWrite, exec .ccw3 firstWrite, exec .ccw4 firstWrite,
     exec .ccw5 firstWrite, exec .ccw6 firstWrite, exec .ccw7 firstWrite] =
      [0x09#8, 0x08#8, 0x0C#8, 0x04#8, 0x06#8, 0x02#8, 0x03#8, 0x01#8].map fun v =>
        .next { firstWrite with coilOut := v, unitsLeft := 0, subCnt := 0, phase := .next } := by rfl
/-- T-STB-4 and T-STB-5. -/
theorem test_unit_strobe : (st .hold 0 1 2 0 1 0 1 8 1).unitStb = false ∧ (st .hold 0 1 2 0 1 0 1 9 1).unitStb = true := by decide
/-- T-EVT-2. -/
theorem test_event_level_trace :
    iterationEvents 0 1 0 = [.snap 1 0, .coil 0x01, .coil 0x03, .coil 0x02, .coil 0x06, .coil 0x04, .coil 0x0C, .coil 0x08,
      .coil 0x09, .commit 1] := by decide
/-- T-TIM-5 and T-TIM-7. -/
theorem test_iteration_lengths : iterationClocks 1 5 5 = 2083 ∧ iterationClocks 1 65535 65535 = 343587946563 := by decide
/-- The example of 30_encoding.md section 6 and T-RST-5: after RESET the next clock is a SNAP clock. -/
theorem test_stimulus_script :
    (Bench.script [.reset, .pos (-1), .dly 5, .run 1] ⟨0, 0, inHold⟩).machine.snapPosition = 0xFFFF#16 ∧
    (Bench.script [.reset, .pos (-1), .dly 5, .run 1] ⟨0, 0, inHold⟩).machine.snapDelay = 0x0005#16 ∧
    (Bench.script [.reset, .pos (-1), .dly 5, .run 1] ⟨0, 0, inHold⟩).machine.phase = .dispatch := by decide

/-! ## Witnesses: states and operands that meet the hypotheses of each statement -/

theorem witness_ResetTakesEveryRegisterToItsResetValue :
    (resetting inHold 2).ports.rst = true ∧ (∀ j < 2 + 1, ((resetting inHold 2).inputAt j).rst = true) := by decide
theorem witness_ResetAbandonsTheMove :
    let s := resetting (holding inHold 1 0 20) 0
    let i := s.inputAt 1
    let k := iterationClocks s.clksPerUs (distance 0#16 i.targetPosition) i.delay
    s.ParamOk ∧ s.ports.rst = true ∧ k = 19 ∧ (∀ j < k, (s.inputAt (j + 1)).rst = false) := by decide
theorem witness_SnapTakesTheSnapshot : (atRest .snap).ports.rst = false ∧ (atRest .snap).phase = .snap := by decide
theorem witness_DispatchStartsOrSkipsTheMove_skip :
    (st .dispatch 0x8000 0x8000 0 0 0 0 0 0 0).snapPosition.toInt = (st .dispatch 0x8000 0x8000 0 0 0 0 0 0 0).prevPosition.toInt ∧
    (st .dispatch 0x8000 0x8000 0 0 0 0 0 0 0).ports.rst = false ∧ (st .dispatch 0x8000 0x8000 0 0 0 0 0 0 0).phase = .dispatch := by
  decide
theorem witness_DispatchStartsOrSkipsTheMove_start :
    (st .dispatch 0x8000 0x7FFF 0 0 0 0 0 0 0).snapPosition.toInt ≠ (st .dispatch 0x8000 0x7FFF 0 0 0 0 0 0 0).prevPosition.toInt ∧
    (st .dispatch 0x8000 0x7FFF 0 0 0 0 0 0 0).tick.cyclesLeft = 0xFFFF#16 := by decide
theorem witness_OperandsAreAssembledFromBits :
    (∃ t, exec .dispatch (st .dispatch 0x7FFF 0x8000 0 0 0 0 0 0 0) = .next t) ∧
    (st .dispatch 0x7FFF 0x8000 0 0 0 0 0 0 0).snapPosition.toInt ≠ (st .dispatch 0x7FFF 0x8000 0 0 0 0 0 0 0).prevPosition.toInt ∧
    (∃ t, exec .emit firstWrite = .next t) := ⟨⟨_, rfl⟩, by decide, ⟨_, rfl⟩⟩
theorem witness_CommitRecordsTheSnapshotPosition : (atRest .commit).ports.rst = false ∧ (atRest .commit).phase = .commit := by decide
theorem witness_ZeroDeltaIterationMovesNothing :
    let s := holding (atRest .snap) 7 9999 5
    s.phase = .snap ∧ s.NoReset 3 ∧ s.ports.targetPosition = s.prevPosition := by decide
theorem witness_OutputMuxSelectsTheSequence :
    firstWrite.dir = 0#1 ∧ (st .emit 0 1 0 1 1 7 0 0 0).dir = 1#1 ∧
    (st .emit 0 1 9 0 5 0 0 0 3).dir = firstWrite.dir ∧ (st .emit 0 1 9 0 5 0 0 0 3).idx = firstWrite.idx ∧
    (∃ t, exec .emit (st .emit 0 1 9 0 5 0 0 0 3) = .next t) := ⟨by decide, by decide, by decide, by decide, ⟨_, rfl⟩⟩
theorem witness_OutputMuxSelectsTheSequence_step :
    firstWrite.ports.rst = false ∧ firstWrite.phase = .emit ∧ step firstWrite = .next firstWrite.tick ∧
    inHold.ports.rst = false ∧ inHold.phase ≠ .emit ∧ step inHold = .next inHold.tick :=
  ⟨by decide, by decide, rfl, by decide, by decide, rfl⟩
theorem witness_EmitWritesTheCurrentEntry : firstWrite.ports.rst = false ∧ firstWrite.phase = .emit := by decide
theorem witness_RomRowsWriteTheirPatterns :
    romAddress firstWrite.dir firstWrite.idx = 0x0#4 ∧
    romAddress (st .emit 0 1 0 1 1 7 0 0 0).dir (st .emit 0 1 0 1 1 7 0 0 0).idx = 0xF#4 := by decide
theorem witness_NextAdvancesTheCoilCounter_next_entry :
    (st .next 0 1 0 0 1 6 0 0 8).idx ≠ 7#3 ∧ (st .next 0 1 0 0 1 6 0 0 8).ports.rst = false ∧ (st .next 0 1 0 0 1 6 0 0 8).phase = .next ∧
    (st .next 0 1 0 0 1 6 0 0 8).tick.idx = 7#3 := by decide
theorem witness_NextAdvancesTheCoilCounter_next_cycle :
    (st .next 0 1 0 0 1 7 0 0 9).idx = 7#3 ∧ 1 ≤ (st .next 0 1 0 0 1 7 0 0 9).cyclesLeft.toNat ∧
    (st .next 0 1 0 0 0 7 0 0 9).idx = 7#3 ∧ (st .next 0 1 0 0 0 7 0 0 9).cyclesLeft = 0x0000#16 := by decide
theorem witness_MoveDrivesNFullCycles :
    let k := 8 * firstWrite.cyclesLeft.toNat * coilPeriod firstWrite.clksPerUs firstWrite.snapDelay
    firstWrite.ParamOk ∧ firstWrite.phase = .emit ∧ firstWrite.idx = 0#3 ∧ 1 ≤ firstWrite.cyclesLeft.toNat ∧ k = 16 ∧
    firstWrite.NoReset k ∧ seqCw ∈ [seqCw, seqCcw] ∧ seqCcw ∈ [seqCw, seqCcw] := by decide
theorem witness_CoilOutIsRetainedOutsideEmit :
    let s := holding (atRest .snap) 7 0 5
    s.NoReset 5 ∧ ∀ j < 5, (s.ticks j).phase ≠ .emit := by decide
theorem witness_EveryStepKeepsTheCoilHistory :
    firstWrite.CoilHistory ∧ (atRest .snap).CoilHistory ∧ inHold.CoilHistory ∧ step firstWrite = .next firstWrite.tick :=
  ⟨by decide, by decide, by decide, rfl⟩
/-- A write that is not the move's first: the second of the first cycle. -/
theorem witness_CoilWriteChangesFewLines_later :
    let s := st .emit 0 1 0 0 1 1 0 0 0x01
    s.CoilHistory ∧ s.ports.rst = false ∧ s.phase = .emit ∧ ¬ s.FirstWrite ∧ linesChanged s.coilOut s.tick.coilOut = 1 := by decide
theorem witness_CoilWriteChangesFewLines_after_reset_clockwise :
    firstWrite.CoilHistory ∧ firstWrite.FirstWrite ∧ firstWrite.coilOut = 0x00#8 ∧ firstWrite.dir = 0#1 ∧
    linesChanged firstWrite.coilOut firstWrite.tick.coilOut = 1 := by decide
theorem witness_CoilWriteChangesFewLines_after_reset_counter_clockwise :
    let s := st .emit 1 0 0 1 1 0 0 0 0
    s.CoilHistory ∧ s.FirstWrite ∧ s.coilOut = 0x00#8 ∧ s.dir = 1#1 ∧ linesChanged s.coilOut s.tick.coilOut = 2 := by decide
theorem witness_CoilWriteChangesFewLines_same_way :
    let s := st .emit 0 1 0 0 1 0 0 0 0x09
    s.CoilHistory ∧ s.ports.rst = false ∧ s.phase = .emit ∧ s.FirstWrite ∧ s.coilOut = romRead (romAddress s.dir 7#3) := by decide
theorem witness_CoilWriteChangesFewLines_other_way :
    let s := st .emit 0 1 0 0 1 0 0 0 0x01
    s.CoilHistory ∧ s.ports.rst = false ∧ s.phase = .emit ∧ s.FirstWrite ∧ s.coilOut = romRead (romAddress (s.dir + 1#1) 7#3) := by decide
theorem witness_HoldCountsClocksAndUnits_within_a_unit :
    let s := st .hold 0 1 5 0 1 0 5 8 1
    s.subCnt ≠ unitClks s.clksPerUs - 1 ∧ s.subCnt < unitClks s.clksPerUs - 1 ∧ s.ports.rst = false ∧ s.phase = .hold := by decide
theorem witness_HoldCountsClocksAndUnits_end_of_a_unit :
    let s := st .hold 0 1 5 0 1 0 1 9 1
    let z := st .hold 0 1 5 0 1 0 0 9 1
    s.subCnt = unitClks s.clksPerUs - 1 ∧ 1 ≤ s.unitsLeft.toNat ∧ z.subCnt = unitClks z.clksPerUs - 1 ∧ z.unitsLeft = 0x0000#16 := by decide
theorem witness_HoldCountsClocksAndUnits_entry :
    let s := st .emit 0 1 0xFFFF 0 1 0 0 0 0
    step s = .next s.tick ∧ s.tick.phase = .hold ∧ s.phase ≠ .hold := ⟨rfl, by decide, by decide⟩
theorem witness_HoldCountsClocksAndUnits_length :
    let s := st .emit 0 1 1 0 1 0 0 0 0
    s.ParamOk ∧ s.phase = .emit ∧ 1 ≤ s.snapDelay.toNat ∧ s.NoReset (s.snapDelay.toNat * unitClks s.clksPerUs + 1) := by decide
theorem witness_TimerWidthsFollowTheParameter : 1 ≤ 1 ∧ 3 < subWidth (unitClks 1) := by decide
theorem witness_SubCntStaysInItsWidth :
    let s := st .hold 0 1 5 0 1 0 5 15 1
    s.SubCntFits ∧ step s = .next s.tick ∧ s.ports.rst = false ∧ s.phase = .hold ∧ s.subCnt ≠ unitClks s.clksPerUs - 1 ∧
    s.tick.subCnt = 0 := ⟨by decide, rfl, by decide, by decide, by decide, by decide⟩
theorem witness_HoldLastsDelayTimesUnit :
    let s := st .hold 0 1 2 0 1 0 2 0 1
    s.ParamOk ∧ s.phase = .hold ∧ s.subCnt = 0 ∧ 1 ≤ s.unitsLeft.toNat ∧ s.NoReset (s.unitsLeft.toNat * unitClks s.clksPerUs) := by decide
theorem witness_ZeroDelayWritesEveryTwoClocks :
    firstWrite.phase = .emit ∧ firstWrite.snapDelay = 0x0000#16 ∧ firstWrite.NoReset 2 := by decide
theorem witness_StepRunsTheSelectedOperation :
    decode inHold.code = .ok .hold ∧ inHold.ports.rst = false ∧ (resetting inHold 0).ports.rst = true ∧
    decode (resetting inHold 0).code = .ok .reset := by decide
theorem witness_PhaseSuccessorsAreTheListedOnes_reset :
    step (resetting inHold 0) = .next (resetting inHold 0).tick ∧ (resetting inHold 0).ports.rst = true := ⟨rfl, by decide⟩
/-- One state for every row of the successor table of 60_exceptions.md section 10, with the phase it gives. -/
theorem witness_PhaseSuccessorsAreTheListedOnes_rows :
    (atRest .snap).tick.phase = .dispatch ∧ (atRest .dispatch).tick.phase = .commit ∧
    (st .dispatch 0 1 0 0 0 0 0 0 0).tick.phase = .emit ∧ firstWrite.tick.phase = .next ∧ (st .emit 0 1 1 0 1 0 0 0 0).tick.phase = .hold ∧
    (st .hold 0 1 1 0 1 0 1 9 0).tick.phase = .next ∧ (st .hold 0 1 1 0 1 0 1 8 0).tick.phase = .hold ∧
    (st .hold 0 1 1 0 1 0 2 9 0).tick.phase = .hold ∧ (st .next 0 1 1 0 1 7 0 0 0).tick.phase = .commit ∧
    (st .next 0 1 1 0 1 6 0 0 0).tick.phase = .emit ∧ (st .next 0 1 1 0 2 7 0 0 0).tick.phase = .emit ∧
    (atRest .commit).tick.phase = .snap := by decide
theorem witness_CoincidentEventsHaveAFixedOrder :
    (resetting (atRest .snap) 0).ports.rst = true ∧ step (resetting (atRest .snap) 0) = .next (resetting (atRest .snap) 0).tick ∧
    (atRest .snap).ports.rst = false ∧ (atRest .snap).phase = .snap ∧ step (atRest .snap) = .next (atRest .snap).tick :=
  ⟨by decide, rfl, by decide, by decide, rfl⟩
theorem witness_CoincidentEventsHaveAFixedOrder_later_values :
    let s := holding (atRest .snap) 7 0 3
    let s' := { s with coming := List.replicate 3 ⟨false, 0x1234#16, 9#16⟩ }
    s.phase = .snap ∧ s.SameRegisters s' ∧ s'.ports = s.ports ∧ s.NoReset 3 ∧ s'.NoReset 3 ∧ s.coming ≠ s'.coming ∧
    ∀ j < 3, 1 ≤ j → (s.ticks j).phase ≠ .snap := by decide
theorem witness_StrobesShowTheEvents :
    (atRest .snap).snapStb = true ∧ firstWrite.coilStb = true ∧ step firstWrite = .next firstWrite.tick ∧
    (st .hold 0 1 1 0 1 0 1 9 0).unitStb = true ∧ (atRest .commit).commitStb = true ∧ step (atRest .commit) = .next (atRest .commit).tick :=
  ⟨by decide, by decide, rfl, by decide, by decide, rfl⟩
theorem witness_PlacedCodeRunsNext :
    decode ⟨.phase, 4⟩ = .ok .next ∧ decode ⟨.rst, 1⟩ = .ok .reset ∧ decode ⟨.rom, 12⟩ = .ok .ccw4 ∧
    (inHold.placeCode ⟨.rom, 12⟩).operation = .emit ∧ (inHold.placeCode ⟨.rom, 12⟩).tick.coilOut = 0x06#8 := by decide
theorem witness_EveryStepKeepsTheInvariants :
    (atRest .snap).Inv ∧ (st .dispatch 7 9 5 0 0 0 0 0 9).Inv ∧ firstWrite.Inv ∧ inHold.Inv ∧ (st .next 9 7 5 1 2 7 0 0 1).Inv ∧
    (atRest .commit).Inv ∧ step inHold = .next inHold.tick :=
  ⟨by decide, by decide, by decide, by decide, by decide, by decide, rfl⟩
theorem witness_EachRegisterHasItsWriters :
    (atRest .dispatch).ports.rst = false ∧ step (atRest .dispatch) = .next (atRest .dispatch).tick ∧ (atRest .dispatch).phase ≠ .commit ∧
    (atRest .dispatch).phase ≠ .snap ∧ (atRest .dispatch).phase ≠ .emit ∧ (atRest .dispatch).phase ≠ .hold ∧
    inHold.ports.rst = false ∧ step inHold = .next inHold.tick ∧ inHold.phase ≠ .dispatch ∧ inHold.phase ≠ .next :=
  ⟨by decide, rfl, by decide, by decide, by decide, by decide, by decide, rfl, by decide, by decide⟩
theorem witness_CountersNeverWrap_next_cycle :
    let s := st .next 9 7 5 1 1 7 0 0 1
    s.Inv ∧ s.ports.rst = false ∧ s.phase = .next ∧ s.idx = 7#3 := by decide
theorem witness_CountersNeverWrap_next_entry :
    let s := st .next 9 7 5 1 2 6 0 0 3
    s.Inv ∧ s.ports.rst = false ∧ s.phase = .next ∧ s.idx ≠ 7#3 := by decide
theorem witness_CountersNeverWrap_hold_end_of_a_unit :
    let s := st .hold 0 1 1 0 1 0 1 9 1
    s.Inv ∧ s.ports.rst = false ∧ s.phase = .hold ∧ s.subCnt = unitClks s.clksPerUs - 1 := by decide
theorem witness_CountersNeverWrap_hold_within_a_unit :
    let s := st .hold 0 1 1 0 1 0 1 8 1
    s.Inv ∧ s.ports.rst = false ∧ s.phase = .hold ∧ s.subCnt ≠ unitClks s.clksPerUs - 1 := by decide
theorem witness_CountersNeverWrap_dispatch :
    let s := st .dispatch 0x8000 0x7FFF 5 0 0 0 0 0 1
    s.Inv ∧ s.ports.rst = false ∧ s.phase = .dispatch ∧ s.snapPosition ≠ s.prevPosition ∧ s.tick.cyclesLeft = 0xFFFF#16 := by decide
/-- T-SNP-7. -/
theorem witness_PortsAreReadInSnapOnly :
    let s := inHold
    let s' := holding inHold 0x1234 0 3
    s.SameRegisters s' ∧ s.ports.rst = false ∧ s'.ports.rst = false ∧ s.phase ≠ .snap ∧ s.ports ≠ s'.ports ∧
    step s = .next s.tick ∧ step s' = .next s'.tick :=
  ⟨by decide, by decide, by decide, by decide, by decide, rfl, rfl⟩
theorem witness_MoveIgnoresThePorts :
    let s := firstWrite
    let s' := holding firstWrite 0x1234 9 20
    s.SameRegisters s' ∧ s.NoReset 17 ∧ s'.NoReset 17 ∧ ∀ j < 17, (s.ticks j).phase ≠ .snap := by decide
theorem witness_CommandLatencyIsAtMostTwoClocks :
    ∀ q ∈ [Phase.snap, Phase.dispatch, Phase.commit],
      let s := holding (atRest q) 9 5 6
      s.Idle ∧ (s.phase = .dispatch → s.snapPosition = s.prevPosition) ∧ (s.phase = .commit → s.snapPosition ≠ 9#16) ∧
      (s.phase ≠ .commit → s.prevPosition ≠ 9#16) ∧ s.NoReset 5 ∧ s.TargetHeld 9#16 3 := by decide
theorem witness_SettledEngineStaysSettled :
    let s := holding (atRest .snap) 7 5 10
    s.Settled ∧ s.NoReset 9 ∧ s.TargetHeld s.prevPosition 9 := by decide

/-- Ports that are held for n clocks carry the same values in each of them. -/
theorem inputAt_holding (s : State) (p : Position) (d : Delay) (n j : Nat) (h : j ≤ n) :
    (holding s p d n).inputAt j = { rst := false, targetPosition := p, delay := d } := by
  cases j with
  | zero => rfl
  | succ j => simp [holding, State.inputAt, List.getD, Nat.lt_of_succ_le h]

theorem witness_HeldTargetIsReached :
    let b := 2 * longestIteration inHold.clksPerUs
    let s := holding inHold 9 5 b
    s.Inv ∧ 2 * longestIteration s.clksPerUs = b ∧ s.NoReset (b + 1) ∧ s.TargetHeld 9#16 (b + 1) := by
  intro b s
  refine ⟨?_, rfl, fun j hj => ?_, fun j hj => ?_⟩
  · have h : inHold.Inv := by decide
    exact h
  · rw [inputAt_holding _ _ _ _ _ (Nat.le_of_lt_succ hj)]
  · rw [inputAt_holding _ _ _ _ _ (Nat.le_of_lt_succ hj)]
    rfl

theorem witness_IterationCarriesTheEventLevelTrace :
    let s := holding (st .snap 0 0 0 0 0 0 0 0 0) 1 0 20
    let k := iterationClocks s.clksPerUs (distance s.prevPosition s.ports.targetPosition) s.ports.delay
    s.ParamOk ∧ s.phase = .snap ∧ k = 19 ∧ s.NoReset k := by decide
/-- The event clocks' witness has a hold: one cycle at delay 1, 99 clocks (T-TIM-3). -/
theorem witness_EventsFallAtTheirClocks :
    let s := holding (st .snap 0 0 0 0 0 0 0 0 0) 1 1 99
    let n := distance s.prevPosition s.ports.targetPosition
    s.ParamOk ∧ s.phase = .snap ∧ iterationClocks s.clksPerUs n s.ports.delay = 99 ∧
    s.NoReset (iterationClocks s.clksPerUs n s.ports.delay) ∧ 7 < 8 * n ∧ 1 ≤ 1 ∧ 1 ≤ s.ports.delay.toNat := by decide
theorem witness_ClockLevelRefinesEventLevel :
    let s := holding (st .snap 0 0 0 0 0 0 0 0 0) 1 0 40
    s.ParamOk ∧ s.phase = .snap ∧ s.NoReset 30 := by decide
theorem witness_StimulusStatementsDriveThePorts :
    (Stmt.pos (-32768)).wellFormed = true ∧ (Stmt.pos 32767).wellFormed = true ∧ (Stmt.dly 65535).wellFormed = true ∧
    (Stmt.dly 0).wellFormed = true := by decide
/-- A SNAP clock under RUN 1, with other values held than the machine's ports show. -/
theorem witness_StimulusStatementsDriveThePorts_snap_clock :
    let b := Bench.mk 0x8000 0xFFFF (atRest .snap)
    (b.exec (.run 0)).machine.phase = .snap ∧ b.machine.ports.targetPosition ≠ b.target ∧
    (b.exec (.run 1)).machine.snapPosition = 0x8000#16 ∧ (b.exec (.run 1)).machine.snapDelay = 0xFFFF#16 := by decide
theorem witness_UntilCommitStopsAfterTheNextCommit : (Bench.mk 9 5 inHold).machine.Inv := by decide

end Sys2Proof.Tests
end

/-! The strobes of 10_state.md R27: when each is 1, the event its clock carries, and what a run's strobes count. -/

namespace Sys2Proof.Machine

/-! ### When a strobe is 1 -/

theorem snapStb_iff {s : State} : s.snapStb = true ↔ s.ports.rst = false ∧ s.phase = .snap := by
  simp [State.snapStb]

theorem coilStb_iff {s : State} : s.coilStb = true ↔ s.ports.rst = false ∧ s.phase = .emit := by
  simp [State.coilStb]

theorem unitStb_iff {s : State} :
    s.unitStb = true ↔ s.ports.rst = false ∧ s.phase = .hold ∧ s.subCnt = unitClks s.clksPerUs - 1 := by
  simp [State.unitStb, State.unitEnds, and_assoc]

theorem commitStb_iff {s : State} : s.commitStb = true ↔ s.ports.rst = false ∧ s.phase = .commit := by
  simp [State.commitStb]

/-! ### The event of a clock with a strobe: the phase rules the strobes tested before it out -/

theorem event_of_snapStb {s : State} (h : s.snapStb = true) :
    s.event = some (.snap s.ports.targetPosition s.ports.delay) := by
  simp [State.event, h]

theorem event_of_coilStb {s : State} (h : s.coilStb = true) : s.event = some (.coil s.currentEntry) := by
  obtain ⟨-, hp⟩ := coilStb_iff.1 h
  simp [State.event, h, State.snapStb, hp]

theorem event_of_unitStb {s : State} (h : s.unitStb = true) : s.event = some .unit := by
  obtain ⟨-, hp, -⟩ := unitStb_iff.1 h
  simp [State.event, h, State.snapStb, State.coilStb, hp]

theorem event_of_commitStb {s : State} (h : s.commitStb = true) : s.event = some (.commit s.snapPosition) := by
  obtain ⟨-, hp⟩ := commitStb_iff.1 h
  simp [State.event, h, State.snapStb, State.coilStb, State.unitStb, hp]

/-! ### The value a write shows in the clock after its strobe -/

theorem tick_coilOut_of_coilStb {s : State} (h : s.coilStb = true) : s.tick.coilOut = s.currentEntry := by
  obtain ⟨hr, hp⟩ := coilStb_iff.1 h
  simp [tick_emit hr hp]

theorem tick_prevPosition_of_commitStb {s : State} (h : s.commitStb = true) : s.tick.prevPosition = s.snapPosition := by
  obtain ⟨hr, hp⟩ := commitStb_iff.1 h
  simp [tick_commit hr hp]

/-! ### Counting at a strobe -/

/-- A clock carries a Coil event exactly when coil_stb is 1. -/
theorem event_any_isCoil (s : State) : s.event.any isCoil = s.coilStb := by
  cases h : s.coilStb with
  | true => simp [event_of_coilStb h, isCoil]
  | false =>
    simp only [State.event, h, Bool.false_eq_true, if_false]
    split_ifs <;> rfl

/-- A clock carries a Unit event exactly when unit_stb is 1. -/
theorem event_any_isUnit (s : State) : s.event.any isUnit = s.unitStb := by
  cases h : s.unitStb with
  | true => simp [event_of_unitStb h, isUnit]
  | false =>
    simp only [State.event, h, Bool.false_eq_true, if_false]
    split_ifs <;> rfl

/-- If a strobe tells in every state whether the clock's event is of a kind, then over every run it counts the events of that
kind. -/
theorem countP_trace_of_strobe {p : Event → Bool} {strobe : State → Bool} (h : ∀ s : State, s.event.any p = strobe s)
    (n : Nat) (s : State) :
    (s.trace n).countP p = ((List.range n).filter fun j => strobe (s.ticks j)).length := by
  induction n with
  | zero => rfl
  | succ n ih =>
    have clock : (s.ticks n).event.toList.countP p = ([n].filter fun j => strobe (s.ticks j)).length := by
      rw [List.filter_singleton, ← h (s.ticks n)]
      cases (s.ticks n).event with
      | none => rfl
      | some e => cases he : p e <;> simp [he]
    have last : (s.ticks n).trace 1 = (s.ticks n).event.toList := List.append_nil _
    rw [trace_add, last, List.countP_append, ih, clock, List.range_succ, List.filter_append, List.length_append]

/-- Settles O33: the four conditions and events strobe by strobe, the two counts by `countP_trace_of_strobe`. -/
theorem strobesShowTheEvents : Obligations.StrobesShowTheEvents := by
  refine ⟨fun n s => ⟨countP_trace_of_strobe event_any_isCoil n s, countP_trace_of_strobe event_any_isUnit n s⟩, fun s =>
    ⟨snapStb_iff, coilStb_iff, unitStb_iff, commitStb_iff, event_of_snapStb, fun h => ⟨event_of_coilStb h, fun t ht => ?_⟩,
      event_of_unitStb, fun h => ⟨event_of_commitStb h, fun t ht => ?_⟩⟩⟩
  · obtain rfl := tick_of_step ht
    exact tick_coilOut_of_coilStb h
  · obtain rfl := tick_of_step ht
    exact tick_prevPosition_of_commitStb h

end Sys2Proof.Machine

/-! The sequence ROM and its address (20_memory.md R40; 30_encoding.md R49 to R51). -/

namespace Sys2Proof.Machine

/-- R49. The concatenation `{dir, idx}` is the sum: `idx` lies below bit 3, so no carry joins the two fields. -/
theorem romAddress_toNat (d : Direction) (i : EntryIndex) : (romAddress d i).toNat = 8 * d.toNat + i.toNat := by
  calc (romAddress d i).toNat
    _ = d.toNat <<< 3 ||| i.toNat := BitVec.toNat_append d i
    _ = d.toNat <<< 3 + i.toNat := (Nat.shiftLeft_add_eq_or_of_lt i.isLt d.toNat).symm
    _ = 8 * d.toNat + i.toNat := by rw [Nat.shiftLeft_eq, Nat.mul_comm]

theorem romAddress_eq_ofNat (d : Direction) (i : EntryIndex) :
    romAddress d i = BitVec.ofNat 4 (8 * d.toNat + i.toNat) := by
  rw [← romAddress_toNat, BitVec.ofNat_toNat, BitVec.setWidth_eq]

/-- Settles O10: each entry is read off the table, the address map is `romAddress_eq_ofNat`. -/
theorem romHoldsTheTwoSequences : Obligations.RomHoldsTheTwoSequences :=
  ⟨rfl, rfl, rfl, rfl, rfl, rfl, rfl, rfl, rfl, rfl, rfl, rfl, rfl, rfl, rfl, rfl, romAddress_eq_ofNat⟩

end Sys2Proof.Machine

/-! What selects the operation of a clock (30_encoding.md R54): the code on the phase register or `rst`, and the step that runs
it. -/

namespace Sys2Proof.Machine

/-- R54, R22. The code a phase shows decodes to the operation the phase selects. -/
theorem decode_phase_code (p : Phase) : decode p.code = .ok p.instr := by
  cases p <;> rfl

theorem phase_code_format (p : Phase) : p.code.format = .phase := by
  cases p <;> rfl

theorem code_of_rst {s : State} (hr : s.ports.rst = true) : s.code = ⟨.rst, 1⟩ := by
  simp [State.code, hr]

theorem code_of_not_rst {s : State} (hr : s.ports.rst = false) : s.code = s.phase.code := by
  simp [State.code, hr]

/-- R54. The operation a step runs is the one the selecting code names, so decoding rejects the code of no state. -/
theorem decode_code (s : State) : decode s.code = .ok s.operation := by
  cases hr : s.ports.rst with
  | true => rw [code_of_rst hr, State.operation, if_pos hr]; rfl
  | false => rw [code_of_not_rst hr, decode_phase_code]; simp [State.operation, hr]

/-- R90. Every instruction completes in every state. -/
theorem exists_exec_next (i : Instr) (s : State) : ∃ t, exec i s = .next t := by
  cases i <;> exact ⟨_, rfl⟩

theorem step_of_exec_operation {s t : State} (h : exec s.operation s = .next t) : step s = .next t.nextInputs := by
  rw [step, h]

theorem exec_and_step_of_decode_code {s : State} {i : Instr} (h : decode s.code = .ok i) :
    ∃ t, exec i s = .next t ∧ step s = .next t.nextInputs := by
  obtain rfl : s.operation = i := Decoded.ok.inj ((decode_code s).symm.trans h)
  obtain ⟨t, ht⟩ := exists_exec_next s.operation s
  exact ⟨t, ht, step_of_exec_operation ht⟩

/-- Settles O27: every clock's code decodes to the operation it runs (`decode_code`), and every operation completes. -/
theorem stepRunsTheSelectedOperation : Obligations.StepRunsTheSelectedOperation := by
  refine ⟨fun s i h => exec_and_step_of_decode_code h, fun s => ⟨s.operation, decode_code s⟩, fun s hr => ?_, fun s hr => ?_,
    rfl, rfl, rfl, rfl, rfl, rfl⟩
  · rw [code_of_rst hr]
    rfl
  · rw [code_of_not_rst hr]
    exact ⟨phase_code_format s.phase, rfl, decode_phase_code s.phase⟩

end Sys2Proof.Machine

/-! The position-delta accumulator (40_snapshot_delta.md): SNAP, DISPATCH, COMMIT, the delta they work on, and the successors of
every phase. -/

namespace Sys2Proof.Machine

/-! ### delta (R62) -/

/-- R62. Seventeen bits hold every difference of two positions, so the subtraction does not wrap. -/
theorem delta17_toInt (snap prev : Position) : (delta17 snap prev).toInt = deltaOf snap prev := by
  have inRange := deltaOf_bounds snap prev
  calc (delta17 snap prev).toInt
    _ = (deltaOf snap prev).bmod (2 ^ 17) := by
      have keeps (p : Position) : (p.signExtend 17).toInt = p.toInt := BitVec.toInt_signExtend_of_le (by decide)
      rw [delta17, BitVec.toInt_sub, keeps, keeps, deltaOf]
    _ = deltaOf snap prev := Int.bmod_eq_of_le (by norm_num; omega) (by norm_num; omega)

/-- R62. The magnitude of a delta fits the 16 bits of the cycle count. -/
theorem cyclesOf_deltaOf_toNat (snap prev : Position) :
    (cyclesOf (deltaOf snap prev)).toNat = (snap.toInt - prev.toInt).natAbs := by
  have inRange := deltaOf_bounds snap prev
  exact cyclesOf_toNat (by omega)

/-- Settles O6: `delta17_toInt` and `cyclesOf_deltaOf_toNat`, both from the range `deltaOf_bounds`. -/
theorem deltaIsTheExactDifference : Obligations.DeltaIsTheExactDifference := by
  intro snap prev
  obtain ⟨lower, upper⟩ := deltaOf_bounds snap prev
  exact ⟨rfl, delta17_toInt snap prev, lower, upper, cyclesOf_deltaOf_toNat snap prev⟩

/-! ### SNAP and COMMIT (R60, R63) -/

/-- R54. With `rst = 0` the code of the clock decodes to the operation of the phase. -/
theorem decode_code_of_phase {s : State} {p : Phase} (hr : s.ports.rst = false) (hp : s.phase = p) :
    decode s.code = .ok p.instr := by
  rw [code_of_not_rst hr, decode_phase_code, hp]

theorem exec_snap (s : State) :
    exec .snap s = .next ((s.setSnapshot s.ports.targetPosition s.ports.delay).setPhase .dispatch) := rfl

theorem exec_commit (s : State) : exec .commit s = .next ((s.setPrevPosition s.snapPosition).setPhase .snap) := rfl

/-- Settles O4: the registers are read off `exec_snap`, the event follows from the strobe. -/
theorem snapTakesTheSnapshot : Obligations.SnapTakesTheSnapshot := by
  refine fun s => ⟨⟨_, exec_snap s, by simp [State.SameInputs]⟩, fun hr hp => ?_⟩
  have strobe : s.snapStb = true := snapStb_iff.2 ⟨hr, hp⟩
  exact ⟨decode_code_of_phase hr hp, strobe, event_of_snapStb strobe⟩

/-- Settles O8: the registers are read off `exec_commit`, the event follows from the strobe. -/
theorem commitRecordsTheSnapshotPosition : Obligations.CommitRecordsTheSnapshotPosition := by
  refine fun s => ⟨⟨_, exec_commit s, by simp [State.SameInputs]⟩, fun hr hp => ?_⟩
  have strobe : s.commitStb = true := commitStb_iff.2 ⟨hr, hp⟩
  exact ⟨decode_code_of_phase hr hp, strobe, event_of_commitStb strobe⟩

/-! ### DISPATCH (R61) -/

theorem deltaIsZero_eq_false_iff {s : State} : s.deltaIsZero = false ↔ s.snapPosition.toInt ≠ s.prevPosition.toInt := by
  rw [← Bool.not_eq_true, deltaIsZero_iff]

theorem exec_dispatch_of_eq {s : State} (h : s.snapPosition.toInt = s.prevPosition.toInt) :
    exec .dispatch s = .next (s.setPhase .commit) := by
  simp [exec, execDispatch, (deltaIsZero_iff s).2 h]

theorem exec_dispatch_of_ne {s : State} (h : s.snapPosition.toInt ≠ s.prevPosition.toInt) :
    exec .dispatch s = .next s.startMove := by
  simp [exec, execDispatch, deltaIsZero_eq_false_iff.2 h]

theorem startMove_cyclesLeft_toNat (s : State) :
    s.startMove.cyclesLeft.toNat = (s.snapPosition.toInt - s.prevPosition.toInt).natAbs :=
  cyclesOf_deltaOf_toNat s.snapPosition s.prevPosition

theorem startMove_dir_eq (s : State) :
    s.startMove.dir = (if s.snapPosition.toInt - s.prevPosition.toInt < 0 then 1#1 else 0#1) := rfl

/-- R27. The phase DISPATCH shows no strobe. -/
theorem no_strobe_of_dispatch {s : State} (hp : s.phase = .dispatch) :
    s.snapStb = false ∧ s.coilStb = false ∧ s.unitStb = false ∧ s.commitStb = false := by
  simp [State.snapStb, State.coilStb, State.unitStb, State.commitStb, hp]

/-- R9. A clock without a strobe is silent. -/
theorem event_eq_none_of_no_strobe {s : State}
    (h : s.snapStb = false ∧ s.coilStb = false ∧ s.unitStb = false ∧ s.commitStb = false) : s.event = none := by
  obtain ⟨hsnap, hcoil, hunit, hcommit⟩ := h
  simp [State.event, hsnap, hcoil, hunit, hcommit]

/-- Settles O5: the skip and the start by whether the positions are equal, the clock by `no_strobe_of_dispatch`. -/
theorem dispatchStartsOrSkipsTheMove : Obligations.DispatchStartsOrSkipsTheMove := by
  refine fun s => ⟨?_, fun hr hp => ?_⟩
  · by_cases h : s.snapPosition.toInt = s.prevPosition.toInt
    · exact ⟨_, exec_dispatch_of_eq h, fun _ => by simp, fun hne => absurd h hne, by simp [State.SameInputs]⟩
    · exact ⟨_, exec_dispatch_of_ne h, fun heq => absurd heq h,
        fun _ => ⟨rfl, rfl, startMove_dir_eq s, startMove_cyclesLeft_toNat s⟩, by simp [State.SameInputs]⟩
  · have silent := no_strobe_of_dispatch hp
    exact ⟨decode_code_of_phase hr hp, event_eq_none_of_no_strobe silent, silent⟩

/-! ### The successor of every phase (R66) -/

section
variable {s : State}

theorem tick_phase_of_rst (hr : s.ports.rst = true) : s.tick.phase = .snap := by
  simp [tick_reset hr]

theorem tick_phase_of_snap (hr : s.ports.rst = false) (hp : s.phase = .snap) : s.tick.phase = .dispatch := by
  simp [tick_snap hr hp]

theorem tick_phase_of_dispatch (hr : s.ports.rst = false) (hp : s.phase = .dispatch) :
    s.tick.phase = (if s.snapPosition.toInt = s.prevPosition.toInt then .commit else .emit) := by
  rw [tick_dispatch hr hp]
  by_cases h : s.snapPosition.toInt = s.prevPosition.toInt
  · simp [h, (deltaIsZero_iff s).2 h]
  · simp [h, deltaIsZero_eq_false_iff.2 h]

theorem tick_phase_of_emit (hr : s.ports.rst = false) (hp : s.phase = .emit) :
    s.tick.phase = (if s.snapDelay = 0#16 then .next else .hold) := by
  simp [tick_emit hr hp, State.delayIsZero]

/-- R81. A hold ends with the last clock of its last unit; before that clock `countClock` keeps the phase, after an earlier
unit `completeUnit` does. -/
theorem tick_phase_of_hold (hr : s.ports.rst = false) (hp : s.phase = .hold) :
    s.tick.phase = (if s.subCnt = unitClks s.clksPerUs - 1 ∧ s.unitsLeft = 1#16 then .next else .hold) := by
  rw [tick_hold hr hp]
  by_cases hu : s.subCnt = unitClks s.clksPerUs - 1
  · simp [State.unitEnds, State.lastUnit, hu]
  · simp [State.unitEnds, hu, hp]

/-- R73. A move ends with the last entry of its last cycle; both `nextEntry` and an earlier `nextCycle` go back to EMIT. -/
theorem tick_phase_of_next (hr : s.ports.rst = false) (hp : s.phase = .next) :
    s.tick.phase = (if s.idx = 7#3 ∧ s.cyclesLeft = 1#16 then .commit else .emit) := by
  rw [tick_next hr hp]
  by_cases he : s.idx = 7#3
  · simp [State.lastEntry, State.lastCycle, he]
  · simp [State.lastEntry, he]

theorem tick_phase_of_commit (hr : s.ports.rst = false) (hp : s.phase = .commit) : s.tick.phase = .snap := by
  simp [tick_commit hr hp]

end

/-- Settles O28: every step is the tick, whose phase is given phase by phase. -/
theorem phaseSuccessorsAreTheListedOnes : Obligations.PhaseSuccessorsAreTheListedOnes := by
  intro s t h
  obtain rfl := tick_of_step h
  exact ⟨tick_phase_of_rst, fun hr => ⟨tick_phase_of_snap hr, tick_phase_of_dispatch hr, tick_phase_of_emit hr,
    tick_phase_of_hold hr, tick_phase_of_next hr, tick_phase_of_commit hr⟩⟩

end Sys2Proof.Machine

/-! The coil sequencer (41_sequencer.md): EMIT and its output mux, NEXT and the coil-pattern counter. -/

namespace Sys2Proof.Machine

/-! ### EMIT (R71) -/

theorem exec_emit (s : State) : exec .emit s = .next (s.coilWrite s.currentEntry) := rfl

theorem delayIsZero_iff {s : State} : s.delayIsZero = true ↔ s.snapDelay = 0#16 := by
  simp [State.delayIsZero]

/-- Settles O14: the registers are read off `exec_emit`, the event follows from the strobe. -/
theorem emitWritesTheCurrentEntry : Obligations.EmitWritesTheCurrentEntry := by
  refine fun s => ⟨⟨_, exec_emit s, rfl, by simp [delayIsZero_iff, State.SameInputs]⟩, fun hr hp => ?_⟩
  have strobe : s.coilStb = true := coilStb_iff.2 ⟨hr, hp⟩
  exact ⟨decode_code_of_phase hr hp, strobe, event_of_coilStb strobe⟩

/-! ### The output mux (R72) -/

/-- R50. The clockwise sequence stands in the ROM where `dir` is 0. -/
theorem seqCw_getElem?_idx : ∀ i : EntryIndex, seqCw[i.toNat]? = some (romRead (romAddress 0#1 i)) := by
  decide

/-- R51. The counter-clockwise sequence stands in the ROM where `dir` is 1. -/
theorem seqCcw_getElem?_idx : ∀ i : EntryIndex, seqCcw[i.toNat]? = some (romRead (romAddress 1#1 i)) := by
  decide

/-- R72. EMIT's entry depends on `dir` and `idx` alone. -/
theorem currentEntry_congr {s s' : State} (hd : s'.dir = s.dir) (hi : s'.idx = s.idx) :
    s'.currentEntry = s.currentEntry := by
  rw [State.currentEntry, hd, hi, State.currentEntry]

/-- R75. Without reset no phase but EMIT writes the coil output. -/
theorem tick_coilOut_of_ne_emit {s : State} (hr : s.ports.rst = false) (hp : s.phase ≠ .emit) :
    s.tick.coilOut = s.coilOut := by
  cases h : s.phase with
  | snap => simp [tick_snap hr h]
  | dispatch => rw [tick_dispatch hr h]; split <;> simp
  | emit => exact absurd h hp
  | hold => rw [tick_hold hr h]; split <;> simp
  | next => rw [tick_next hr h]; split <;> simp
  | commit => simp [tick_commit hr h]

theorem tick_coilOut_of_not_rst {s : State} (hr : s.ports.rst = false) :
    s.tick.coilOut = (if s.phase = .emit then s.currentEntry else s.coilOut) := by
  split
  · next hp => exact tick_coilOut_of_coilStb (coilStb_iff.2 ⟨hr, hp⟩)
  · next hp => exact tick_coilOut_of_ne_emit hr hp

/-- Settles O13: the two sequences are the two halves of the ROM, and every step is the tick, whose coil output is
`tick_coilOut_of_not_rst`. -/
theorem outputMuxSelectsTheSequence : Obligations.OutputMuxSelectsTheSequence := by
  refine ⟨fun s => ⟨_, exec_emit s, fun hd => ?_, fun hd => ?_, rfl, fun s' t' hd hi h => ?_⟩, fun s t hr h => ?_⟩
  · rw [seqCw_getElem?_idx, State.coilWrite_coilOut, State.currentEntry, hd]
  · rw [seqCcw_getElem?_idx, State.coilWrite_coilOut, State.currentEntry, hd]
  · obtain rfl : s'.coilWrite s'.currentEntry = t' := Host.Outcome.next.inj h
    exact currentEntry_congr hd hi
  · obtain rfl := tick_of_step h
    exact tick_coilOut_of_not_rst hr

/-! ### NEXT and the coil-pattern counter (R73) -/

theorem exec_next_of_ne {s : State} (h : s.idx ≠ 7#3) : exec .next s = .next s.nextEntry := by
  simp [exec, execNext, State.lastEntry, h]

theorem exec_next_of_eq {s : State} (h : s.idx = 7#3) : exec .next s = .next s.nextCycle := by
  simp [exec, execNext, State.lastEntry, h]

/-- R73. Below the eighth entry the increment of `idx` does not wrap. -/
theorem nextEntry_idx_toNat {s : State} (h : s.idx ≠ 7#3) : s.nextEntry.idx.toNat = s.idx.toNat + 1 := by
  rw [State.nextEntry_idx]
  bv_omega

theorem nextCycle_phase_eq (s : State) :
    s.nextCycle.phase = (if s.cyclesLeft = 1#16 then .commit else .emit) := by
  simp [State.lastCycle]

/-- R73. A NEXT that finds no cycle left wraps the count. -/
theorem nextCycle_cyclesLeft_of_eq_zero {s : State} (h : s.cyclesLeft = 0#16) : s.nextCycle.cyclesLeft = 0xFFFF#16 := by
  rw [State.nextCycle_cyclesLeft, h]
  rfl

/-- R27. The phase NEXT shows no strobe. -/
theorem no_strobe_of_next {s : State} (hp : s.phase = .next) :
    s.snapStb = false ∧ s.coilStb = false ∧ s.unitStb = false ∧ s.commitStb = false := by
  simp [State.snapStb, State.coilStb, State.unitStb, State.commitStb, hp]

/-- Settles O16: the next entry and the next cycle by whether `idx` is 7, the clock by `no_strobe_of_next`. -/
theorem nextAdvancesTheCoilCounter : Obligations.NextAdvancesTheCoilCounter := by
  refine fun s => ⟨?_, fun hr hp => ?_⟩
  · by_cases h : s.idx = 7#3
    · exact ⟨_, exec_next_of_eq h, fun hne => absurd h hne,
        fun _ => ⟨rfl, toNat_sub_one, nextCycle_cyclesLeft_of_eq_zero, nextCycle_phase_eq s⟩, by simp [State.SameInputs]⟩
    · exact ⟨_, exec_next_of_ne h, fun _ => ⟨nextEntry_idx_toNat h, rfl, rfl⟩, fun heq => absurd heq h,
        by simp [State.SameInputs]⟩
  · have silent := no_strobe_of_next hp
    exact ⟨decode_code_of_phase hr hp, event_eq_none_of_no_strobe silent, silent⟩

end Sys2Proof.Machine

/-! The timed pulse generator (42_delay_timer.md): HOLD, its entry from EMIT, and the clocks a hold still lasts. -/

namespace Sys2Proof.Machine

/-! ### HOLD (R81) -/

theorem unitEnds_iff {s : State} : s.unitEnds = true ↔ s.subCnt = unitClks s.clksPerUs - 1 := by
  simp [State.unitEnds]

theorem exec_hold_of_eq {s : State} (h : s.subCnt = unitClks s.clksPerUs - 1) : exec .hold s = .next s.completeUnit := by
  simp [exec, execHold, unitEnds_iff.2 h]

theorem exec_hold_of_ne {s : State} (h : s.subCnt ≠ unitClks s.clksPerUs - 1) : exec .hold s = .next s.countClock := by
  simp [exec, execHold, unitEnds_iff, h]

theorem countClock_subCnt_of_lt {s : State} (h : s.subCnt < unitClks s.clksPerUs - 1) :
    s.countClock.subCnt = s.subCnt + 1 := subCntPlusOne_eq h

theorem completeUnit_phase_eq (s : State) : s.completeUnit.phase = (if s.unitsLeft = 1#16 then .next else .hold) := by
  simp [State.lastUnit]

/-- R81. A unit that completes with no unit left wraps the count. -/
theorem completeUnit_unitsLeft_of_eq_zero {s : State} (h : s.unitsLeft = 0#16) : s.completeUnit.unitsLeft = 0xFFFF#16 := by
  rw [State.completeUnit_unitsLeft, h]
  rfl

/-! ### The clocks of a hold (R81, R27) -/

section
variable {s : State} (hr : s.ports.rst = false) (hp : s.phase = .hold)
include hr hp

theorem tick_of_unit_end (h : s.subCnt = unitClks s.clksPerUs - 1) : s.tick = s.completeUnit.nextInputs := by
  rw [tick_hold hr hp, if_pos (unitEnds_iff.2 h)]

theorem tick_within_unit (h : s.subCnt ≠ unitClks s.clksPerUs - 1) : s.tick = s.countClock.nextInputs := by
  rw [tick_hold hr hp, if_neg (mt unitEnds_iff.1 h)]

theorem unitStb_iff_of_hold : s.unitStb = true ↔ s.subCnt = unitClks s.clksPerUs - 1 := by
  simp [unitStb_iff, hr, hp]

/-- R9. A HOLD clock carries Unit when it ends a unit and is silent otherwise: the phase rules out the other strobes. -/
theorem event_of_hold : s.event = (if s.subCnt = unitClks s.clksPerUs - 1 then some .unit else none) := by
  have strobe := unitStb_iff_of_hold hr hp
  split
  · next h => exact event_of_unitStb (strobe.2 h)
  · next h =>
    have unit : s.unitStb = false := by simpa using mt strobe.1 h
    exact event_eq_none_of_no_strobe (by simp [State.snapStb, State.coilStb, State.commitStb, hp, unit])

end

/-! ### The entry of a hold (R71, R81) -/

/-- R66. Only an EMIT clock with a delay other than 0 turns another phase into HOLD. -/
theorem emit_of_tick_phase_eq_hold {s : State} (ht : s.tick.phase = .hold) (hp : s.phase ≠ .hold) :
    s.ports.rst = false ∧ s.phase = .emit ∧ s.snapDelay ≠ 0#16 := by
  cases hr : s.ports.rst with
  | true => simp [tick_phase_of_rst hr] at ht
  | false =>
    cases h : s.phase with
    | snap => simp [tick_phase_of_snap hr h] at ht
    | dispatch =>
      rw [tick_phase_of_dispatch hr h] at ht
      split at ht <;> cases ht
    | emit =>
      refine ⟨rfl, rfl, fun delay => ?_⟩
      simp [tick_phase_of_emit hr h, delay] at ht
    | hold => exact absurd h hp
    | next =>
      rw [tick_phase_of_next hr h] at ht
      split at ht <;> cases ht
    | commit => simp [tick_phase_of_commit hr h] at ht

/-- R81. A hold is entered from EMIT only, with the timer loaded from a delay of at least 1. -/
theorem hold_entry {s : State} (ht : s.tick.phase = .hold) (hp : s.phase ≠ .hold) :
    s.phase = .emit ∧ s.tick.unitsLeft = s.snapDelay ∧ 1 ≤ s.tick.unitsLeft.toNat ∧ s.tick.subCnt = 0 := by
  obtain ⟨hr, emit, delay⟩ := emit_of_tick_phase_eq_hold ht hp
  have loaded : s.tick.unitsLeft = s.snapDelay := by simp [tick_emit hr emit]
  refine ⟨emit, loaded, ?_, by simp [tick_emit hr emit]⟩
  rw [loaded]
  exact Nat.pos_of_ne_zero (mt (eq_zero_iff _).2 delay)

/-! ### The length of a hold (R81, R84) -/

/-- The hold lasts n more clocks, this one included: the units left, less the clocks of this unit already counted. -/
def State.HoldRemaining (s : State) (n : Nat) : Prop :=
  s.phase = .hold ∧ s.subCnt < unitClks s.clksPerUs ∧ n + s.subCnt = s.unitsLeft.toNat * unitClks s.clksPerUs

section
variable {s : State}

theorem tick_holdRemaining_of_emit (hparam : s.ParamOk) (hr : s.ports.rst = false) (hp : s.phase = .emit)
    (hd : 1 ≤ s.snapDelay.toNat) : s.tick.HoldRemaining (s.snapDelay.toNat * unitClks s.clksPerUs) := by
  have delay : s.snapDelay ≠ 0#16 := mt (eq_zero_iff _).1 (Nat.ne_of_gt hd)
  have hold : s.tick.phase = .hold := (tick_phase_of_emit hr hp).trans (if_neg delay)
  rw [tick_emit hr hp] at hold ⊢
  exact ⟨hold, Nat.zero_lt_of_lt (unitClks_pos hparam), rfl⟩

theorem unitsLeft_pos_of_holdRemaining {n : Nat} (h : s.HoldRemaining (n + 1)) : 1 ≤ s.unitsLeft.toNat := by
  obtain ⟨-, -, left⟩ := h
  exact Nat.pos_of_mul_pos_right (by omega : 0 < s.unitsLeft.toNat * unitClks s.clksPerUs)

/-- One clock is left only at the end of the last unit. -/
theorem last_of_holdRemaining_one (h : s.HoldRemaining 1) :
    s.subCnt = unitClks s.clksPerUs - 1 ∧ s.unitsLeft = 1#16 := by
  have units := unitsLeft_pos_of_holdRemaining h
  obtain ⟨-, within, left⟩ := h
  have notTwo : s.unitsLeft.toNat < 2 := Nat.lt_of_mul_lt_mul_right (a := unitClks s.clksPerUs) (by omega)
  have one : s.unitsLeft.toNat = 1 := by omega
  rw [one] at left
  exact ⟨by omega, (eq_one_iff _).2 one⟩

/-- A clock that is not the hold's last leaves one clock less to hold. -/
theorem tick_holdRemaining {n : Nat} (hr : s.ports.rst = false) (h : s.HoldRemaining (n + 2)) :
    s.tick.HoldRemaining (n + 1) := by
  have units := unitsLeft_pos_of_holdRemaining h
  obtain ⟨hp, within, left⟩ := h
  by_cases hu : s.subCnt = unitClks s.clksPerUs - 1
  · have another : s.unitsLeft ≠ 1#16 := by
      intro one
      rw [(eq_one_iff _).1 one] at left
      omega
    have left' : n + 1 = (s.unitsLeft - 1#16).toNat * unitClks s.clksPerUs := by
      rw [toNat_sub_one units, Nat.sub_one_mul]
      omega
    rw [tick_of_unit_end hr hp hu]
    exact ⟨(completeUnit_phase_eq s).trans (if_neg another), Nat.zero_lt_of_lt within, left'⟩
  · have counted : s.countClock.subCnt = s.subCnt + 1 := countClock_subCnt_of_lt (by omega)
    have within' : s.countClock.subCnt < unitClks s.clksPerUs := by omega
    have left' : n + 1 + s.countClock.subCnt = s.unitsLeft.toNat * unitClks s.clksPerUs := by omega
    rw [tick_within_unit hr hp hu]
    exact ⟨hp, within', left'⟩

/-- The last clock of a hold goes on to NEXT. -/
theorem tick_phase_of_holdRemaining_one (hr : s.ports.rst = false) (h : s.HoldRemaining 1) : s.tick.phase = .next := by
  rw [tick_phase_of_hold hr h.1, if_pos (last_of_holdRemaining_one h)]

end

/-- R81. Nothing but reset cuts a hold short: every clock before its end takes one from what remains. -/
theorem ticks_holdRemaining {j n : Nat} {s : State} (hr : s.NoReset j) (h : s.HoldRemaining (n + 1 + j)) :
    (s.ticks j).HoldRemaining (n + 1) := by
  induction j generalizing s with
  | zero => exact h
  | succ j ih =>
    have before : s.HoldRemaining (n + j + 2) := by rwa [Nat.add_right_comm n 1] at h
    have after : s.tick.HoldRemaining (n + 1 + j) := by
      rw [Nat.add_right_comm n 1]
      exact tick_holdRemaining (noReset_now hr) before
    exact ih (noReset_tick hr) after

/-- A hold stays in HOLD for the clocks that remain and then goes on to NEXT. -/
theorem ticks_phase_of_holdRemaining {k : Nat} {s : State} (hr : s.NoReset k) (hk : 0 < k) (h : s.HoldRemaining k) :
    (∀ j < k, (s.ticks j).phase = .hold) ∧ (s.ticks k).phase = .next := by
  have remaining : ∀ j n, j + (n + 1) = k → (s.ticks j).HoldRemaining (n + 1) := fun j n hj =>
    ticks_holdRemaining (noReset_mono hr (by omega)) (by rwa [Nat.add_comm, hj])
  refine ⟨fun j hj => (remaining j (k - j - 1) (by omega)).1, ?_⟩
  obtain ⟨last, rfl⟩ : ∃ last, k = last + 1 := ⟨k - 1, by omega⟩
  have clock : (s.ticks last).NoReset 1 := noReset_ticks hr le_rfl
  rw [ticks_succ']
  exact tick_phase_of_holdRemaining_one (noReset_now clock) (remaining last 0 rfl)

/-- R81. An EMIT with a delay of at least 1 is followed by `snap_delay` units of HOLD clocks and then by NEXT. -/
theorem ticks_phase_of_emit {s : State} (hparam : s.ParamOk) (hp : s.phase = .emit) (hd : 1 ≤ s.snapDelay.toNat) {k : Nat}
    (hk : s.snapDelay.toNat * unitClks s.clksPerUs = k) (hr : s.NoReset (k + 1)) :
    (∀ j < k, (s.ticks (j + 1)).phase = .hold) ∧ (s.ticks (k + 1)).phase = .next := by
  have unit := unitClks_pos hparam
  have entered := tick_holdRemaining_of_emit hparam (noReset_now hr) hp hd
  rw [hk] at entered
  exact ticks_phase_of_holdRemaining (noReset_tick hr) (hk ▸ Nat.mul_pos hd (by omega)) entered

/-- Settles O22: the entry is `hold_entry`, the duration `ticks_phase_of_emit`, the registers by whether the clock ends a unit,
the clock by `event_of_hold`. -/
theorem holdCountsClocksAndUnits : Obligations.HoldCountsClocksAndUnits := by
  refine ⟨fun s t h ht hp => ?_, fun s hparam hp hd => ticks_phase_of_emit hparam hp hd rfl,
    fun s => ⟨?_, fun hr hp => ?_⟩⟩
  · obtain rfl := tick_of_step h
    exact hold_entry ht hp
  · by_cases h : s.subCnt = unitClks s.clksPerUs - 1
    · exact ⟨_, exec_hold_of_eq h, fun hne => absurd h hne, fun hlt => absurd h (Nat.ne_of_lt hlt),
        fun _ => ⟨rfl, toNat_sub_one, completeUnit_unitsLeft_of_eq_zero, completeUnit_phase_eq s⟩, by simp [State.SameInputs]⟩
    · exact ⟨_, exec_hold_of_ne h, fun _ => ⟨rfl, rfl⟩, countClock_subCnt_of_lt, fun heq => absurd heq h,
        by simp [State.SameInputs]⟩
  · exact ⟨decode_code_of_phase hr hp, unitStb_iff_of_hold hr hp, event_of_hold hr hp⟩

end Sys2Proof.Machine

/-! No exceptions (60_exceptions.md): every clock takes a step, reset comes before every phase, and the ports reach the registers
in SNAP clocks only. -/

namespace Sys2Proof.Machine

/-! ### Every state has a successor (R90, R102) -/

/-- Settles O29: operations complete by `exists_exec_next`, steps by `step_eq_tick`, and Fault has no constructor. -/
theorem noOperationRaisesAnException : Obligations.NoOperationRaisesAnException :=
  ⟨exists_exec_next, fun s => ⟨s.tick, step_eq_tick s⟩, nofun⟩

theorem run_succ_of_step {M : Host.Core} {s t : M.State} (h : M.step s = .next t) (n : Nat) :
    M.run (n + 1) s = M.run n t := by
  rw [Host.Core.run, h]

/-- R102. No run of the machine stops before its last step. -/
theorem run_eq_next_ticks (n : Nat) (s : State) : core.run n s = .next (s.ticks n) := by
  induction n generalizing s with
  | zero => rfl
  | succ n ih => exact (run_succ_of_step (M := core) (step_eq_tick s) n).trans (ih s.tick)

@[simp] theorem ticks_clock (n : Nat) (s : State) : (s.ticks n).clock = s.clock + n := by
  induction n with
  | zero => rfl
  | succ n ih => rw [ticks_succ', tick_clock, ih, Nat.add_assoc]

/-- Settles O30: the run is `run_eq_next_ticks`, the clock number `ticks_clock`. -/
theorem engineStepsForEver : Obligations.EngineStepsForEver :=
  fun n s => ⟨run_eq_next_ticks n s, ticks_clock n s⟩

/-! ### Reset wins over every phase (R93 item 1) -/

theorem tick_registersReset_of_rst {s : State} (hr : s.ports.rst = true) : s.tick.RegistersReset := by
  simp [State.RegistersReset, tick_reset hr]

/-- R27. A clock with `rst = 1` shows no strobe. -/
theorem no_strobe_of_rst {s : State} (hr : s.ports.rst = true) :
    s.snapStb = false ∧ s.coilStb = false ∧ s.unitStb = false ∧ s.commitStb = false := by
  simp [State.snapStb, State.coilStb, State.unitStb, State.commitStb, hr]

/-! ### The registers do not depend on the ports of other clocks (R93 item 3) -/

/-- Two clocks without reset that start from the same registers end with the same registers; only SNAP's also need the same
ports. -/
theorem tick_sameRegisters {s s' : State} (h : s.SameRegisters s') (hr : s.ports.rst = false) (hr' : s'.ports.rst = false)
    (hports : s.phase = .snap → s'.ports = s.ports) : s.tick.SameRegisters s'.tick := by
  obtain ⟨hphase, hprev, hsnap, hdelay, hdir, hcycles, hidx, hunits, hsub, hcoil, hparam⟩ := h
  cases hp : s.phase with
  | snap => simp [State.SameRegisters, tick_snap hr hp, tick_snap hr' (hphase.trans hp), *]
  | dispatch =>
    have hdelta : s'.delta = s.delta := by rw [State.delta, hprev, hsnap, State.delta]
    have skip : s'.deltaIsZero = s.deltaIsZero := by rw [State.deltaIsZero, hdelta, State.deltaIsZero]
    rw [tick_dispatch hr hp, tick_dispatch hr' (hphase.trans hp), skip]
    split <;> simp [State.SameRegisters, *]
  | emit =>
    have entry : s'.currentEntry = s.currentEntry := currentEntry_congr hdir hidx
    simp [State.SameRegisters, tick_emit hr hp, tick_emit hr' (hphase.trans hp), State.delayIsZero, *]
  | hold =>
    have ends : s'.unitEnds = s.unitEnds := by rw [State.unitEnds, hsub, hparam, State.unitEnds]
    rw [tick_hold hr hp, tick_hold hr' (hphase.trans hp), ends]
    split <;> simp [State.SameRegisters, State.lastUnit, *]
  | next =>
    have eighth : s'.lastEntry = s.lastEntry := by rw [State.lastEntry, hidx, State.lastEntry]
    rw [tick_next hr hp, tick_next hr' (hphase.trans hp), eighth]
    split <;> simp [State.SameRegisters, State.lastCycle, *]
  | commit => simp [State.SameRegisters, tick_commit hr hp, tick_commit hr' (hphase.trans hp), *]

/-- Two runs without reset that start from the same registers and see the same ports in their SNAP clocks keep the same
registers. -/
theorem ticks_sameRegisters {n : Nat} {s s' : State} (h : s.SameRegisters s') (hr : s.NoReset n) (hr' : s'.NoReset n)
    (hports : ∀ j < n, (s.ticks j).phase = .snap → (s'.ticks j).ports = (s.ticks j).ports) :
    (s.ticks n).SameRegisters (s'.ticks n) := by
  induction n generalizing s s' with
  | zero => exact h
  | succ n ih =>
    have first : s.tick.SameRegisters s'.tick :=
      tick_sameRegisters h (noReset_now hr) (noReset_now hr') (hports 0 n.succ_pos)
    exact ih first (noReset_tick hr) (noReset_tick hr') fun j hj => hports (j + 1) (Nat.succ_lt_succ hj)

/-- Settles O32: reset is `tick_registersReset_of_rst`, a SNAP clock `tick_snap`, and the later values `ticks_sameRegisters`:
the only SNAP clock of the run is its first. -/
theorem coincidentEventsHaveAFixedOrder : Obligations.CoincidentEventsHaveAFixedOrder := by
  refine ⟨fun s t hr h => ?_, fun s t hr hp h => ?_, fun n s s' _ hregs hports hr hr' hlater => ?_⟩
  · obtain rfl := tick_of_step h
    have silent := no_strobe_of_rst hr
    exact ⟨tick_registersReset_of_rst hr, event_eq_none_of_no_strobe silent, silent⟩
  · obtain rfl := tick_of_step h
    exact ⟨by simp [tick_snap hr hp], tick_ports s⟩
  · refine ticks_sameRegisters hregs hr hr' fun j hj hp => ?_
    cases j with
    | zero => exact hports
    | succ j => exact absurd hp (hlater (j + 1) hj j.succ_pos)

end Sys2Proof.Machine

/-! Reset (70_reset_and_hazards.md): the operation RESET, the clock that runs it, and a reset held for several clocks. -/

namespace Sys2Proof.Machine

theorem exec_reset (s : State) : exec .reset s = .next s.clearRegisters := rfl

theorem clearRegisters_registersReset (s : State) : s.clearRegisters.RegistersReset := by
  simp [State.RegistersReset]

theorem clearRegisters_sameInputs (s : State) : s.SameInputs s.clearRegisters := by
  simp [State.SameInputs]

/-- R54. With `rst = 1` the code of the clock decodes to reset, whatever the phase. -/
theorem decode_code_of_rst {s : State} (hr : s.ports.rst = true) : decode s.code = .ok .reset := by
  rw [code_of_rst hr]
  rfl

/-- R7. A run moves along the input stream one clock per step. -/
theorem inputAt_ticks (n j : Nat) (s : State) : (s.ticks n).inputAt j = s.inputAt (n + j) := by
  induction n generalizing j with
  | zero => rw [Nat.zero_add, State.ticks]
  | succ n ih => rw [ticks_succ', inputAt_tick, ih, Nat.add_right_comm, Nat.add_assoc]

/-- R105. A run whose last clock has `rst = 1` ends with the registers reset, whatever the clocks before it did. -/
theorem ticks_registersReset_of_last_rst {n : Nat} {s : State} (hr : (s.inputAt n).rst = true) :
    (s.ticks (n + 1)).RegistersReset := by
  have last : (s.ticks n).ports.rst = true := by
    rw [← hr]
    exact congrArg Ports.rst (inputAt_ticks n 0 s)
  rw [ticks_succ']
  exact tick_registersReset_of_rst last

/-- Settles O1: the operation is read off `exec_reset`, the clock is `decode_code_of_rst`, `tick_registersReset_of_rst` and
`no_strobe_of_rst`; of a held reset the last clock suffices (`ticks_registersReset_of_last_rst`). -/
theorem resetTakesEveryRegisterToItsResetValue : Obligations.ResetTakesEveryRegisterToItsResetValue := by
  refine fun s => ⟨⟨_, exec_reset s, clearRegisters_registersReset s, clearRegisters_sameInputs s⟩, fun hr => ?_,
    fun n held => ticks_registersReset_of_last_rst (held n n.lt_succ_self)⟩
  obtain ⟨hsnap, hcoil, hunit, hcommit⟩ := no_strobe_of_rst hr
  exact ⟨decode_code_of_rst hr, ⟨s.tick, step_eq_tick s, tick_registersReset_of_rst hr⟩, hsnap, hcoil, hunit, hcommit,
    event_eq_none_of_no_strobe ⟨hsnap, hcoil, hunit, hcommit⟩⟩

end Sys2Proof.Machine

/-! The writers of each register (the table of 10_state.md section 1). -/

namespace Sys2Proof.Machine

/-- The register table of 10_state.md section 1, read phase by phase: which registers a clock without reset leaves alone. -/
theorem tick_writers {s : State} (hr : s.ports.rst = false) :
    (s.phase ≠ .commit → s.tick.prevPosition = s.prevPosition) ∧
    (s.phase ≠ .snap → s.tick.snapPosition = s.snapPosition ∧ s.tick.snapDelay = s.snapDelay) ∧
    (s.phase ≠ .dispatch → s.tick.dir = s.dir) ∧
    (s.phase ≠ .dispatch → s.phase ≠ .next → s.tick.cyclesLeft = s.cyclesLeft ∧ s.tick.idx = s.idx) ∧
    (s.phase ≠ .emit → s.phase ≠ .hold → s.tick.unitsLeft = s.unitsLeft ∧ s.tick.subCnt = s.subCnt) ∧
    (s.phase ≠ .emit → s.tick.coilOut = s.coilOut) := by
  cases hp : s.phase with
  | snap => simp [tick_snap hr hp]
  | dispatch => rw [tick_dispatch hr hp]; split <;> simp
  | emit => simp [tick_emit hr hp]
  | hold => rw [tick_hold hr hp]; split <;> simp
  | next => rw [tick_next hr hp]; split <;> simp
  | commit => simp [tick_commit hr hp]

/-- Settles O41: every step is the tick, whose writers are `tick_writers`. -/
theorem eachRegisterHasItsWriters : Obligations.EachRegisterHasItsWriters := by
  intro s t hr h
  obtain rfl := tick_of_step h
  exact tick_writers hr

section
variable {s : State} (hr : s.ports.rst = false)
include hr

theorem tick_prevPosition_of_ne_commit (hp : s.phase ≠ .commit) : s.tick.prevPosition = s.prevPosition := by
  obtain ⟨position, -⟩ := tick_writers hr
  exact position hp

theorem tick_snapPosition_of_ne_snap (hp : s.phase ≠ .snap) : s.tick.snapPosition = s.snapPosition := by
  obtain ⟨-, snapshot, -⟩ := tick_writers hr
  exact (snapshot hp).1

theorem tick_snapDelay_of_ne_snap (hp : s.phase ≠ .snap) : s.tick.snapDelay = s.snapDelay := by
  obtain ⟨-, snapshot, -⟩ := tick_writers hr
  exact (snapshot hp).2

theorem tick_dir_of_ne_dispatch (hp : s.phase ≠ .dispatch) : s.tick.dir = s.dir := by
  obtain ⟨-, -, dir, -⟩ := tick_writers hr
  exact dir hp

/-- The coil-pattern counter is written in DISPATCH and NEXT only. -/
theorem tick_counter_of_ne (hd : s.phase ≠ .dispatch) (hn : s.phase ≠ .next) :
    s.tick.cyclesLeft = s.cyclesLeft ∧ s.tick.idx = s.idx := by
  obtain ⟨-, -, -, counter, -⟩ := tick_writers hr
  exact counter hd hn

/-- The delay timer is written in EMIT and HOLD only. -/
theorem tick_timer_of_ne (he : s.phase ≠ .emit) (hh : s.phase ≠ .hold) :
    s.tick.unitsLeft = s.unitsLeft ∧ s.tick.subCnt = s.subCnt := by
  obtain ⟨-, -, -, -, timer, -⟩ := tick_writers hr
  exact timer he hh

theorem tick_snapPosition_of_snap (hp : s.phase = .snap) : s.tick.snapPosition = s.ports.targetPosition := by
  simp [tick_snap hr hp]

theorem tick_snapDelay_of_snap (hp : s.phase = .snap) : s.tick.snapDelay = s.ports.delay := by
  simp [tick_snap hr hp]

theorem tick_timer_of_emit (hp : s.phase = .emit) : s.tick.unitsLeft = s.snapDelay ∧ s.tick.subCnt = 0 := by
  simp [tick_emit hr hp]

theorem tick_prevPosition_of_commit (hp : s.phase = .commit) : s.tick.prevPosition = s.snapPosition :=
  tick_prevPosition_of_commitStb (commitStb_iff.2 ⟨hr, hp⟩)

end

/-- The last clock of a run without reset has `rst = 0`. -/
theorem noReset_last {s : State} {n : Nat} (h : s.NoReset (n + 1)) : (s.ticks n).ports.rst = false :=
  noReset_now (noReset_ticks (k := 1) h le_rfl)

end Sys2Proof.Machine

/-! Progress (60_exceptions.md section 10, 70_reset_and_hazards.md section 5): how many clocks there are to the next COMMIT clock
and which events they carry, as functions of the state; every clock before COMMIT takes one clock and its own event from them. -/

namespace Sys2Proof.Machine

/-! ### A move that can end -/

/-- The counters can reach their ends: a move has a cycle left, a hold a unit, and `sub_cnt` is within its unit. -/
structure State.CountersOk (s : State) : Prop where
  param : s.ParamOk
  cycles : s.Moving → 1 ≤ s.cyclesLeft.toNat
  hold : s.phase = .hold → 1 ≤ s.unitsLeft.toNat ∧ s.subCnt < unitClks s.clksPerUs

theorem countersOk_of_inv {s : State} (h : s.Inv) : s.CountersOk := by
  obtain ⟨param, -, move, hold, -, -⟩ := h
  refine ⟨param, fun hm => (move hm).1, fun hp => ?_⟩
  obtain ⟨units, -, within⟩ := hold hp
  have := unitClks_pos param
  exact ⟨units, by omega⟩

theorem countersOk_of_snap {s : State} (hparam : s.ParamOk) (hp : s.phase = .snap) : s.CountersOk :=
  ⟨hparam, by simp [State.Moving, hp], by simp [hp]⟩

theorem distance_pos_of_ne {p0 p : Position} (h : p.toInt ≠ p0.toInt) : 1 ≤ distance p0 p := by
  unfold distance
  omega

theorem startMove_cyclesLeft_eq_distance (s : State) :
    s.startMove.cyclesLeft.toNat = distance s.prevPosition s.snapPosition := startMove_cyclesLeft_toNat s

theorem tick_of_dispatch_ne {s : State} (hr : s.ports.rst = false) (hp : s.phase = .dispatch)
    (h : s.snapPosition.toInt ≠ s.prevPosition.toInt) : s.tick = s.startMove.nextInputs := by
  rw [tick_dispatch hr hp, if_neg (mt (deltaIsZero_iff s).1 h)]

theorem tick_of_dispatch_eq {s : State} (hr : s.ports.rst = false) (hp : s.phase = .dispatch)
    (h : s.snapPosition.toInt = s.prevPosition.toInt) : s.tick = (s.setPhase .commit).nextInputs := by
  rw [tick_dispatch hr hp, if_pos ((deltaIsZero_iff s).2 h)]

/-! ### The coil writes left in a move -/

/-- The coil writes of the move after the current one: whole cycles, and what is left of this one. -/
def State.writesLeft (s : State) : Nat := 8 * (s.cyclesLeft.toNat - 1) + (7 - s.idx.toNat)

/-- The current entry counts down the cycle: it is the one with `writesLeft` mod 8 entries after it. -/
theorem idx_eq_of_writesLeft (s : State) : s.idx.toNat = 7 - s.writesLeft % 8 := by
  have := s.idx.isLt
  unfold State.writesLeft
  omega

theorem startMove_writesLeft {s : State} (h : s.snapPosition.toInt ≠ s.prevPosition.toInt) :
    s.startMove.writesLeft + 1 = 8 * distance s.prevPosition s.snapPosition := by
  have := distance_pos_of_ne h
  rw [State.writesLeft, startMove_cyclesLeft_eq_distance]
  simp
  omega

/-- NEXT goes to the next coil write, or to COMMIT after the last one. -/
theorem tick_next_cases {s : State} (hr : s.ports.rst = false) (hp : s.phase = .next) (hc : 1 ≤ s.cyclesLeft.toNat) :
    (s.writesLeft = 0 ∧ s.tick.phase = .commit) ∨
    (s.tick.phase = .emit ∧ s.tick.writesLeft + 1 = s.writesLeft ∧ 1 ≤ s.tick.cyclesLeft.toNat) := by
  have idx_lt := s.idx.isLt
  by_cases he : s.idx = 7#3
  · have tick : s.tick = s.nextCycle.nextInputs := by rw [tick_next hr hp]; simp [State.lastEntry, he]
    by_cases hl : s.cyclesLeft = 1#16
    · exact .inl ⟨by simp [State.writesLeft, he, hl], by simp [tick, State.lastCycle, hl]⟩
    · have two : s.cyclesLeft.toNat ≠ 1 := mt (eq_one_iff _).2 hl
      have cycles : s.tick.cyclesLeft.toNat = s.cyclesLeft.toNat - 1 := by simpa [tick] using toNat_sub_one hc
      have idx : s.tick.idx = 0#3 := by simp [tick]
      refine .inr ⟨by simp [tick, State.lastCycle, hl], ?_, by omega⟩
      simp [State.writesLeft, cycles, idx, he]
      omega
  · have tick : s.tick = s.nextEntry.nextInputs := by rw [tick_next hr hp]; simp [State.lastEntry, he]
    have cycles : s.tick.cyclesLeft = s.cyclesLeft := by simp [tick]
    have idx : s.tick.idx.toNat = s.idx.toNat + 1 := by rw [tick]; exact nextEntry_idx_toNat he
    refine .inr ⟨by simp [tick], ?_, by rwa [cycles]⟩
    have : s.idx.toNat ≠ 7 := fun h => he (BitVec.eq_of_toNat_eq h)
    simp only [State.writesLeft, cycles, idx]
    omega

/-- R84. A HOLD clock counts within its unit or ends it; it goes on to NEXT when no unit is left. -/
theorem tick_hold_cases {s : State} (hr : s.ports.rst = false) (hp : s.phase = .hold) (h : s.CountersOk) :
    (s.unitStb = false ∧ s.tick.phase = .hold ∧ s.tick.unitsLeft = s.unitsLeft ∧ s.tick.subCnt = s.subCnt + 1 ∧
      s.subCnt + 1 < unitClks s.clksPerUs) ∨
    (s.unitStb = true ∧ s.subCnt + 1 = unitClks s.clksPerUs ∧ s.tick.unitsLeft.toNat + 1 = s.unitsLeft.toNat ∧
      s.tick.subCnt = 0 ∧ s.tick.phase = (if s.tick.unitsLeft.toNat = 0 then .next else .hold)) := by
  obtain ⟨left, within⟩ := h.hold hp
  by_cases hu : s.subCnt = unitClks s.clksPerUs - 1
  · have fewer : s.tick.unitsLeft.toNat = s.unitsLeft.toNat - 1 := by
      simpa [tick_of_unit_end hr hp hu] using toNat_sub_one left
    have last : s.unitsLeft = 1#16 ↔ s.tick.unitsLeft.toNat = 0 := by rw [eq_one_iff]; omega
    exact .inr ⟨(unitStb_iff_of_hold hr hp).2 hu, by omega, by omega, by simp [tick_of_unit_end hr hp hu],
      by simp [tick_phase_of_hold hr hp, hu, last]⟩
  · have counted := countClock_subCnt_of_lt (s := s) (by omega)
    refine .inl ⟨by simpa using mt (unitStb_iff_of_hold hr hp).1 hu, ?_⟩
    rw [tick_within_unit hr hp hu]
    exact ⟨hp, rfl, counted, by omega⟩

/-- A clock after which a move goes on leaves it a cycle. -/
theorem tick_cyclesLeft_pos {s : State} (hr : s.ports.rst = false) (h : s.CountersOk) (hm : s.tick.Moving) :
    1 ≤ s.tick.cyclesLeft.toNat := by
  cases hp : s.phase with
  | snap => simp [State.Moving, tick_phase_of_snap hr hp] at hm
  | dispatch =>
    by_cases hd : s.snapPosition.toInt = s.prevPosition.toInt
    · simp [State.Moving, tick_phase_of_dispatch hr hp, hd] at hm
    · rw [tick_of_dispatch_ne hr hp hd]
      exact (distance_pos_of_ne hd).trans_eq (startMove_cyclesLeft_eq_distance s).symm
  | emit =>
    rw [(tick_counter_of_ne hr (by simp [hp]) (by simp [hp])).1]
    exact h.cycles (.inl hp)
  | hold =>
    rw [(tick_counter_of_ne hr (by simp [hp]) (by simp [hp])).1]
    exact h.cycles (.inr (.inl hp))
  | next =>
    obtain ⟨-, spent⟩ | ⟨-, -, left⟩ := tick_next_cases hr hp (h.cycles (.inr (.inr hp)))
    · simp [State.Moving, spent] at hm
    · exact left
  | commit => simp [State.Moving, tick_phase_of_commit hr hp] at hm

/-- A clock after which a hold goes on leaves it a unit, and `sub_cnt` within it. -/
theorem tick_hold_ok {s : State} (hr : s.ports.rst = false) (h : s.CountersOk) (ht : s.tick.phase = .hold) :
    1 ≤ s.tick.unitsLeft.toNat ∧ s.tick.subCnt < unitClks s.clksPerUs := by
  by_cases hp : s.phase = .hold
  · obtain ⟨-, -, units, sub, within⟩ | ⟨-, last, -, sub, phase⟩ := tick_hold_cases hr hp h
    · rw [units, sub]
      exact ⟨(h.hold hp).1, within⟩
    · rw [ht] at phase
      exact ⟨Nat.pos_of_ne_zero fun spent => by simp [spent] at phase, by omega⟩
  · obtain ⟨-, -, left, sub⟩ := hold_entry ht hp
    have := unitClks_pos h.param
    exact ⟨left, by omega⟩

/-- Without reset a clock keeps the counters where they can reach their ends. -/
theorem tick_countersOk {s : State} (hr : s.ports.rst = false) (h : s.CountersOk) : s.tick.CountersOk where
  param := by simpa [State.ParamOk] using h.param
  cycles := tick_cyclesLeft_pos hr h
  hold := by simpa using tick_hold_ok hr h

/-! ### The clocks to the next COMMIT clock (60_exceptions.md section 10) -/

/-- The coil period of the move in progress. -/
def State.period (s : State) : Nat := coilPeriod s.clksPerUs s.snapDelay

/-- The clocks from the end of a hold, its NEXT clock included, to COMMIT. -/
def State.clocksAfterHold (s : State) : Nat := 1 + s.writesLeft * s.period

/-- How many clocks, this one included, come before the next COMMIT clock. -/
def State.clocksToCommit (s : State) : Nat :=
  match s.phase with
  | .snap => 2 + 8 * distance s.prevPosition s.ports.targetPosition * coilPeriod s.clksPerUs s.ports.delay
  | .dispatch => 1 + 8 * distance s.prevPosition s.snapPosition * s.period
  | .emit => 1 + s.snapDelay.toNat * unitClks s.clksPerUs + s.clocksAfterHold
  | .hold => s.unitsLeft.toNat * unitClks s.clksPerUs - s.subCnt + s.clocksAfterHold
  | .next => s.clocksAfterHold
  | .commit => 0

section
variable {s : State}

theorem clocksToCommit_of_snap (hp : s.phase = .snap) : s.clocksToCommit =
    2 + 8 * distance s.prevPosition s.ports.targetPosition * coilPeriod s.clksPerUs s.ports.delay := by
  simp [State.clocksToCommit, hp]

theorem clocksToCommit_of_dispatch (hp : s.phase = .dispatch) :
    s.clocksToCommit = 1 + 8 * distance s.prevPosition s.snapPosition * s.period := by
  simp [State.clocksToCommit, hp]

theorem clocksToCommit_of_emit (hp : s.phase = .emit) :
    s.clocksToCommit = 1 + s.snapDelay.toNat * unitClks s.clksPerUs + s.clocksAfterHold := by
  simp [State.clocksToCommit, hp]

theorem clocksToCommit_of_hold (hp : s.phase = .hold) :
    s.clocksToCommit = s.unitsLeft.toNat * unitClks s.clksPerUs - s.subCnt + s.clocksAfterHold := by
  simp [State.clocksToCommit, hp]

theorem clocksToCommit_of_next (hp : s.phase = .next) : s.clocksToCommit = s.clocksAfterHold := by
  simp [State.clocksToCommit, hp]

theorem clocksToCommit_of_commit (hp : s.phase = .commit) : s.clocksToCommit = 0 := by
  simp [State.clocksToCommit, hp]

/-- No clock is left before COMMIT in a COMMIT clock only. -/
theorem clocksToCommit_eq_zero_iff : s.clocksToCommit = 0 ↔ s.phase = .commit := by
  cases hp : s.phase <;> simp [State.clocksToCommit, hp, State.clocksAfterHold]

/-- The writes of a move are a coil period apart. -/
theorem clocksToCommit_of_emit_eq_mul (hp : s.phase = .emit) : s.clocksToCommit = (s.writesLeft + 1) * s.period := by
  rw [clocksToCommit_of_emit hp, State.clocksAfterHold, Nat.succ_mul, State.period, coilPeriod]
  omega

theorem tick_period_of_ne_snap (hr : s.ports.rst = false) (hp : s.phase ≠ .snap) : s.tick.period = s.period := by
  rw [State.period, tick_clksPerUs, tick_snapDelay_of_ne_snap hr hp, State.period]

theorem tick_writesLeft (hr : s.ports.rst = false) (hd : s.phase ≠ .dispatch) (hn : s.phase ≠ .next) :
    s.tick.writesLeft = s.writesLeft := by
  obtain ⟨cycles, idx⟩ := tick_counter_of_ne hr hd hn
  rw [State.writesLeft, cycles, idx, State.writesLeft]

/-- A coil write and a hold leave alone what comes after the hold. -/
theorem tick_clocksAfterHold (hr : s.ports.rst = false) (hp : s.phase = .emit ∨ s.phase = .hold) :
    s.tick.clocksAfterHold = s.clocksAfterHold := by
  obtain ⟨hs, hd, hn⟩ : s.phase ≠ .snap ∧ s.phase ≠ .dispatch ∧ s.phase ≠ .next := by
    obtain hp | hp := hp <;> simp [hp]
  rw [State.clocksAfterHold, tick_writesLeft hr hd hn, tick_period_of_ne_snap hr hs, State.clocksAfterHold]

end

section
variable {s : State} (hr : s.ports.rst = false)
include hr

theorem tick_clocksToCommit_of_snap (hp : s.phase = .snap) : s.tick.clocksToCommit + 1 = s.clocksToCommit := by
  have period : s.tick.period = coilPeriod s.clksPerUs s.ports.delay := by
    rw [State.period, tick_clksPerUs, tick_snapDelay_of_snap hr hp]
  rw [clocksToCommit_of_snap hp, clocksToCommit_of_dispatch (tick_phase_of_snap hr hp), period,
    tick_snapPosition_of_snap hr hp, tick_prevPosition_of_ne_commit hr (by simp [hp])]
  omega

theorem tick_clocksToCommit_of_dispatch (hp : s.phase = .dispatch) : s.tick.clocksToCommit + 1 = s.clocksToCommit := by
  rw [clocksToCommit_of_dispatch hp]
  by_cases hd : s.snapPosition.toInt = s.prevPosition.toInt
  · rw [clocksToCommit_of_commit (by simp [tick_phase_of_dispatch hr hp, hd])]
    simp [distance, hd]
  · rw [clocksToCommit_of_emit_eq_mul (by simp [tick_phase_of_dispatch hr hp, hd]), tick_of_dispatch_ne hr hp hd,
      ← startMove_writesLeft hd, Nat.add_comm]
    rfl

theorem tick_clocksToCommit_of_emit (hp : s.phase = .emit) : s.tick.clocksToCommit + 1 = s.clocksToCommit := by
  have later := tick_clocksAfterHold hr (.inl hp)
  rw [clocksToCommit_of_emit hp]
  by_cases hd : s.snapDelay = 0#16
  · rw [clocksToCommit_of_next (by simp [tick_phase_of_emit hr hp, hd]), later, hd]
    simp [Nat.add_comm]
  · obtain ⟨units, sub⟩ := tick_timer_of_emit hr hp
    rw [clocksToCommit_of_hold (by simp [tick_phase_of_emit hr hp, hd]), later, tick_clksPerUs, units, sub]
    omega

theorem tick_clocksToCommit_of_hold (h : s.CountersOk) (hp : s.phase = .hold) :
    s.tick.clocksToCommit + 1 = s.clocksToCommit := by
  obtain ⟨left, within⟩ := h.hold hp
  have later := tick_clocksAfterHold hr (.inr hp)
  have unit : unitClks s.clksPerUs ≤ s.unitsLeft.toNat * unitClks s.clksPerUs := Nat.le_mul_of_pos_left _ left
  rw [clocksToCommit_of_hold hp]
  obtain ⟨-, phase, units, sub, -⟩ | ⟨-, last, units, sub, phase⟩ := tick_hold_cases hr hp h
  · rw [clocksToCommit_of_hold phase, later, tick_clksPerUs, units, sub]
    omega
  · rw [← units, Nat.succ_mul]
    by_cases spent : s.tick.unitsLeft.toNat = 0
    · rw [clocksToCommit_of_next (by simp [phase, spent]), later, spent]
      omega
    · rw [clocksToCommit_of_hold (by simp [phase, spent]), later, tick_clksPerUs, sub]
      omega

theorem tick_clocksToCommit_of_next (h : s.CountersOk) (hp : s.phase = .next) :
    s.tick.clocksToCommit + 1 = s.clocksToCommit := by
  rw [clocksToCommit_of_next hp, State.clocksAfterHold]
  obtain ⟨spent, phase⟩ | ⟨phase, writes, -⟩ := tick_next_cases hr hp (h.cycles (.inr (.inr hp)))
  · rw [clocksToCommit_of_commit phase, spent]
    simp
  · rw [clocksToCommit_of_emit_eq_mul phase, tick_period_of_ne_snap hr (by simp [hp]), writes, Nat.add_comm]

/-- Every clock before COMMIT takes exactly one from the clocks to come. -/
theorem tick_clocksToCommit (h : s.CountersOk) (hp : s.phase ≠ .commit) : s.tick.clocksToCommit + 1 = s.clocksToCommit := by
  cases hs : s.phase with
  | snap => exact tick_clocksToCommit_of_snap hr hs
  | dispatch => exact tick_clocksToCommit_of_dispatch hr hs
  | emit => exact tick_clocksToCommit_of_emit hr hs
  | hold => exact tick_clocksToCommit_of_hold hr h hs
  | next => exact tick_clocksToCommit_of_next hr h hs
  | commit => exact absurd hs hp

end

/-! ### The events up to the next COMMIT (40_snapshot_delta.md R64, 41_sequencer.md R70) -/

/-- The events of the last n coil writes of a move. -/
def lastWrites (dir : Direction) (d : Delay) : Nat → List Event
  | 0 => []
  | n + 1 => Event.coil (romRead (romAddress dir (BitVec.ofNat 3 (7 - n % 8)))) :: (holdEvents d ++ lastWrites dir d n)

/-- Eight writes are a full cycle of the sequence `dir` selects. -/
theorem lastWrites_cycle (dir : Direction) (d : Delay) (n : Nat) :
    lastWrites dir d (8 * (n + 1)) = cycleEvents (if dir = 0#1 then seqCw else seqCcw) d ++ lastWrites dir d (8 * n) := by
  have entry (i : Nat) (hi : i < 8) : (8 * n + i) % 8 = i := by omega
  have either : dir = 0#1 ∨ dir = 1#1 := by bv_omega
  obtain rfl | rfl := either <;> simp [Nat.mul_succ, lastWrites, cycleEvents, seqCw, seqCcw, entry] <;> decide

/-- R70. N cycles are the last 8 * N writes. -/
theorem moveEvents_eq_lastWrites (n : Nat) (dir : Direction) (d : Delay) :
    moveEvents n (if dir = 0#1 then seqCw else seqCcw) d = lastWrites dir d (8 * n) := by
  induction n with
  | zero => rfl
  | succ n ih => rw [lastWrites_cycle, ← ih]; rfl

/-- R64. The motion of an iteration is a move of `abs(delta)` cycles in the direction DISPATCH gives it. -/
theorem motionEvents_eq_lastWrites (p0 p : Position) (d : Delay) :
    motionEvents p0 p d = lastWrites (directionOf (deltaOf p p0)) d (8 * distance p0 p) := by
  rw [← moveEvents_eq_lastWrites]
  unfold motionEvents
  split
  · next up =>
    have n : distance p0 p = (p.toInt - p0.toInt).toNat := by unfold distance; omega
    have dir : directionOf (deltaOf p p0) = 0#1 := if_neg (by unfold deltaOf; omega)
    simp [n, dir]
  · next notUp =>
    split
    · next down =>
      have n : distance p0 p = (p0.toInt - p.toInt).toNat := by unfold distance; omega
      have dir : directionOf (deltaOf p p0) = 1#1 := if_pos (by unfold deltaOf; omega)
      simp [n, dir]
    · next notDown =>
      have n : distance p0 p = 0 := by unfold distance; omega
      simp [n, moveEvents]

/-- The events from the end of a hold to COMMIT. -/
def State.eventsAfterHold (s : State) : List Event :=
  lastWrites s.dir s.snapDelay s.writesLeft ++ [.commit s.snapPosition]

/-- The events of the coming clocks, the next COMMIT clock included. -/
def State.eventsToCommit (s : State) : List Event :=
  match s.phase with
  | .snap => iterationEvents s.prevPosition s.ports.targetPosition s.ports.delay
  | .dispatch => motionEvents s.prevPosition s.snapPosition s.snapDelay ++ [.commit s.snapPosition]
  | .emit => .coil s.currentEntry :: (holdEvents s.snapDelay ++ s.eventsAfterHold)
  | .hold => holdEvents s.unitsLeft ++ s.eventsAfterHold
  | .next => s.eventsAfterHold
  | .commit => [.commit s.snapPosition]

section
variable {s : State}

theorem eventsToCommit_of_snap (hp : s.phase = .snap) :
    s.eventsToCommit = iterationEvents s.prevPosition s.ports.targetPosition s.ports.delay := by
  simp [State.eventsToCommit, hp]

theorem eventsToCommit_of_dispatch (hp : s.phase = .dispatch) :
    s.eventsToCommit = motionEvents s.prevPosition s.snapPosition s.snapDelay ++ [.commit s.snapPosition] := by
  simp [State.eventsToCommit, hp]

theorem eventsToCommit_of_emit (hp : s.phase = .emit) :
    s.eventsToCommit = .coil s.currentEntry :: (holdEvents s.snapDelay ++ s.eventsAfterHold) := by
  simp [State.eventsToCommit, hp]

theorem eventsToCommit_of_hold (hp : s.phase = .hold) :
    s.eventsToCommit = holdEvents s.unitsLeft ++ s.eventsAfterHold := by
  simp [State.eventsToCommit, hp]

theorem eventsToCommit_of_next (hp : s.phase = .next) : s.eventsToCommit = s.eventsAfterHold := by
  simp [State.eventsToCommit, hp]

theorem eventsToCommit_of_commit (hp : s.phase = .commit) : s.eventsToCommit = [.commit s.snapPosition] := by
  simp [State.eventsToCommit, hp]

/-- A coil write is the first of the writes left, itself included. -/
theorem eventsToCommit_of_emit_eq_lastWrites (hp : s.phase = .emit) :
    s.eventsToCommit = lastWrites s.dir s.snapDelay (s.writesLeft + 1) ++ [.commit s.snapPosition] := by
  have idx : BitVec.ofNat 3 (7 - s.writesLeft % 8) = s.idx := by
    rw [← idx_eq_of_writesLeft, BitVec.ofNat_toNat, BitVec.setWidth_eq]
  rw [eventsToCommit_of_emit hp, lastWrites, idx]
  simp [State.eventsAfterHold, State.currentEntry]

theorem tick_eventsAfterHold (hr : s.ports.rst = false) (hp : s.phase = .emit ∨ s.phase = .hold) :
    s.tick.eventsAfterHold = s.eventsAfterHold := by
  obtain ⟨hs, hd, hn⟩ : s.phase ≠ .snap ∧ s.phase ≠ .dispatch ∧ s.phase ≠ .next := by
    obtain hp | hp := hp <;> simp [hp]
  rw [State.eventsAfterHold, tick_dir_of_ne_dispatch hr hd, tick_snapDelay_of_ne_snap hr hs, tick_writesLeft hr hd hn,
    tick_snapPosition_of_ne_snap hr hs, State.eventsAfterHold]

end

section
variable {s : State} (hr : s.ports.rst = false)
include hr

theorem event_append_of_snap (hp : s.phase = .snap) : s.event.toList ++ s.tick.eventsToCommit = s.eventsToCommit := by
  rw [event_of_snapStb (snapStb_iff.2 ⟨hr, hp⟩), eventsToCommit_of_snap hp,
    eventsToCommit_of_dispatch (tick_phase_of_snap hr hp), tick_prevPosition_of_ne_commit hr (by simp [hp]),
    tick_snapPosition_of_snap hr hp, tick_snapDelay_of_snap hr hp]
  rfl

theorem event_append_of_dispatch (hp : s.phase = .dispatch) :
    s.event.toList ++ s.tick.eventsToCommit = s.eventsToCommit := by
  rw [event_eq_none_of_no_strobe (no_strobe_of_dispatch hp), eventsToCommit_of_dispatch hp, motionEvents_eq_lastWrites]
  by_cases hd : s.snapPosition.toInt = s.prevPosition.toInt
  · rw [eventsToCommit_of_commit (by simp [tick_phase_of_dispatch hr hp, hd]), tick_snapPosition_of_ne_snap hr (by simp [hp])]
    simp [distance, hd, lastWrites]
  · rw [eventsToCommit_of_emit_eq_lastWrites (by simp [tick_phase_of_dispatch hr hp, hd]), tick_of_dispatch_ne hr hp hd,
      ← startMove_writesLeft hd]
    rfl

theorem event_append_of_emit (hp : s.phase = .emit) : s.event.toList ++ s.tick.eventsToCommit = s.eventsToCommit := by
  have later := tick_eventsAfterHold hr (.inl hp)
  rw [event_of_coilStb (coilStb_iff.2 ⟨hr, hp⟩), eventsToCommit_of_emit hp]
  by_cases hd : s.snapDelay = 0#16
  · rw [eventsToCommit_of_next (by simp [tick_phase_of_emit hr hp, hd]), later, hd]
    rfl
  · obtain ⟨units, -⟩ := tick_timer_of_emit hr hp
    rw [eventsToCommit_of_hold (by simp [tick_phase_of_emit hr hp, hd]), later, units]
    rfl

theorem event_append_of_hold (h : s.CountersOk) (hp : s.phase = .hold) :
    s.event.toList ++ s.tick.eventsToCommit = s.eventsToCommit := by
  have later := tick_eventsAfterHold hr (.inr hp)
  rw [eventsToCommit_of_hold hp]
  obtain ⟨strobe, phase, units, -⟩ | ⟨strobe, -, units, -, phase⟩ := tick_hold_cases hr hp h
  · have silent : s.event = none :=
      event_eq_none_of_no_strobe (by simp [State.snapStb, State.coilStb, State.commitStb, hp, strobe])
    rw [silent, eventsToCommit_of_hold phase, later, units]
    rfl
  · rw [event_of_unitStb strobe, holdEvents, ← units, List.replicate_succ]
    by_cases spent : s.tick.unitsLeft.toNat = 0
    · rw [eventsToCommit_of_next (by simp [phase, spent]), later, spent]
      rfl
    · rw [eventsToCommit_of_hold (by simp [phase, spent]), later]
      rfl

theorem event_append_of_next (h : s.CountersOk) (hp : s.phase = .next) :
    s.event.toList ++ s.tick.eventsToCommit = s.eventsToCommit := by
  have position := tick_snapPosition_of_ne_snap hr (by simp [hp])
  rw [event_eq_none_of_no_strobe (no_strobe_of_next hp), eventsToCommit_of_next hp, State.eventsAfterHold]
  obtain ⟨spent, phase⟩ | ⟨phase, writes, -⟩ := tick_next_cases hr hp (h.cycles (.inr (.inr hp)))
  · rw [eventsToCommit_of_commit phase, position, spent]
    rfl
  · rw [eventsToCommit_of_emit_eq_lastWrites phase, position, tick_snapDelay_of_ne_snap hr (by simp [hp]),
      tick_dir_of_ne_dispatch hr (by simp [hp]), writes]
    rfl

/-- Every clock before COMMIT takes exactly its own event from the events to come. -/
theorem event_append_tick_eventsToCommit (h : s.CountersOk) (hp : s.phase ≠ .commit) :
    s.event.toList ++ s.tick.eventsToCommit = s.eventsToCommit := by
  cases hs : s.phase with
  | snap => exact event_append_of_snap hr hs
  | dispatch => exact event_append_of_dispatch hr hs
  | emit => exact event_append_of_emit hr hs
  | hold => exact event_append_of_hold hr h hs
  | next => exact event_append_of_next hr h hs
  | commit => exact absurd hs hp

/-! ### The position the iteration commits -/

/-- The position the iteration in progress commits: the one on the port in its SNAP clock, the snapshot after it. -/
def State.goal (s : State) : Position := if s.phase = .snap then s.ports.targetPosition else s.snapPosition

theorem tick_phase_ne_snap (hp : s.phase ≠ .commit) : s.tick.phase ≠ .snap := by
  cases h : s.phase with
  | snap => simp [tick_phase_of_snap hr h]
  | dispatch => rw [tick_phase_of_dispatch hr h]; split <;> simp
  | emit => rw [tick_phase_of_emit hr h]; split <;> simp
  | hold => rw [tick_phase_of_hold hr h]; split <;> simp
  | next => rw [tick_phase_of_next hr h]; split <;> simp
  | commit => exact absurd h hp

theorem tick_goal (hp : s.phase ≠ .commit) : s.tick.goal = s.goal := by
  rw [State.goal, if_neg (tick_phase_ne_snap hr hp), State.goal]
  split
  · next hs => exact tick_snapPosition_of_snap hr hs
  · next hs => exact tick_snapPosition_of_ne_snap hr hs

end

/-! ### The run to the next COMMIT clock -/

theorem ticks_countersOk {n : Nat} {s : State} (hr : s.NoReset n) (h : s.CountersOk) : (s.ticks n).CountersOk := by
  induction n generalizing s with
  | zero => exact h
  | succ n ih => exact ih (noReset_tick hr) (tick_countersOk (noReset_now hr) h)

/-- Up to the next COMMIT clock a run takes its clocks and its events from those to come and keeps the goal. -/
theorem ticks_toCommit {n : Nat} {s : State} (hr : s.NoReset n) (h : s.CountersOk) (hn : n ≤ s.clocksToCommit) :
    n + (s.ticks n).clocksToCommit = s.clocksToCommit ∧ s.trace n ++ (s.ticks n).eventsToCommit = s.eventsToCommit ∧
    (s.ticks n).goal = s.goal := by
  induction n generalizing s with
  | zero => exact ⟨Nat.zero_add _, rfl, rfl⟩
  | succ n ih =>
    have now := noReset_now hr
    have ne : s.phase ≠ .commit := mt clocksToCommit_eq_zero_iff.2 (by omega)
    have clocks := tick_clocksToCommit now h ne
    obtain ⟨later, events, goal⟩ := ih (noReset_tick hr) (tick_countersOk now h) (by omega)
    refine ⟨by rw [State.ticks]; omega, ?_, goal.trans (tick_goal now ne)⟩
    rw [State.trace, List.append_assoc]
    exact (congrArg _ events).trans (event_append_tick_eventsToCommit now h ne)

theorem ticks_phase_eq_commit_iff {n : Nat} {s : State} (hr : s.NoReset n) (h : s.CountersOk) (hn : n ≤ s.clocksToCommit) :
    (s.ticks n).phase = .commit ↔ n = s.clocksToCommit := by
  have clocks := (ticks_toCommit hr h hn).1
  rw [← clocksToCommit_eq_zero_iff]
  omega

/-- The COMMIT clock comes when no clock to it is left. -/
theorem ticks_clocksToCommit_phase {s : State} (hr : s.NoReset s.clocksToCommit) (h : s.CountersOk) :
    (s.ticks s.clocksToCommit).phase = .commit := (ticks_phase_eq_commit_iff hr h le_rfl).2 rfl

/-- The run through the next COMMIT clock carries exactly the events to come, and the next SNAP clock finds the goal reached. -/
theorem ticks_throughCommit {s : State} (hr : s.NoReset (s.clocksToCommit + 1)) (h : s.CountersOk) :
    s.trace (s.clocksToCommit + 1) = s.eventsToCommit ∧ (s.ticks (s.clocksToCommit + 1)).phase = .snap ∧
    (s.ticks (s.clocksToCommit + 1)).prevPosition = s.goal := by
  have before := noReset_mono hr (Nat.le_succ _)
  have last : (s.ticks s.clocksToCommit).ports.rst = false := noReset_last hr
  have commit := ticks_clocksToCommit_phase before h
  obtain ⟨-, events, goal⟩ := ticks_toCommit before h le_rfl
  have clock : (s.ticks s.clocksToCommit).trace 1 = (s.ticks s.clocksToCommit).eventsToCommit := by
    rw [eventsToCommit_of_commit commit, State.trace, event_of_commitStb (commitStb_iff.2 ⟨last, commit⟩)]
    rfl
  refine ⟨by rw [trace_add, clock, events], ?_, ?_⟩
  · rw [ticks_succ', tick_phase_of_commit last commit]
  · rw [ticks_succ', tick_prevPosition_of_commit last commit, ← goal, State.goal, if_neg (by simp [commit])]

end Sys2Proof.Machine

/-! Moves and iterations (40_snapshot_delta.md, 41_sequencer.md, 70_reset_and_hazards.md): the event level, read off the run
through the next COMMIT clock. -/

namespace Sys2Proof.Machine

/-! ### A move (41_sequencer.md R70) -/

theorem countP_holdEvents (p : Event → Bool) (d : Delay) : (holdEvents d).countP p = if p .unit then d.toNat else 0 :=
  List.countP_replicate

theorem cycleEvents_cons (v : Pattern) (seq : List Pattern) (d : Delay) :
    cycleEvents (v :: seq) d = .coil v :: (holdEvents d ++ cycleEvents seq d) := by
  simp [cycleEvents]

theorem countP_isCoil_cycleEvents (seq : List Pattern) (d : Delay) :
    (cycleEvents seq d).countP isCoil = seq.length := by
  induction seq with
  | nil => rfl
  | cons v seq ih => simp [cycleEvents_cons, List.countP_cons, ih, countP_holdEvents, isCoil]

theorem countP_isUnit_cycleEvents (seq : List Pattern) (d : Delay) :
    (cycleEvents seq d).countP isUnit = seq.length * d.toNat := by
  induction seq with
  | nil => simp [cycleEvents]
  | cons v seq ih => simp [cycleEvents_cons, ih, countP_holdEvents, isUnit]; ring

theorem length_cycleEvents (seq : List Pattern) (d : Delay) :
    (cycleEvents seq d).length = seq.length + seq.length * d.toNat := by
  induction seq with
  | nil => simp [cycleEvents]
  | cons v seq ih =>
    simp only [cycleEvents_cons, ih, holdEvents, List.length_cons, List.length_append, List.length_replicate, Nat.succ_mul]
    omega

/-- R70. N cycles of a sequence of eight entries hold 8N coil writes and 8ND delay units and nothing else. -/
theorem moveEvents_counts (n : Nat) (d : Delay) {seq : List Pattern} (h : seq.length = 8) :
    (moveEvents n seq d).countP isCoil = 8 * n ∧ (moveEvents n seq d).countP isUnit = 8 * n * d.toNat ∧
    (moveEvents n seq d).length = 8 * n + 8 * n * d.toNat := by
  simp only [moveEvents, List.countP_flatten, List.length_flatten, List.map_replicate, List.sum_replicate_nat,
    countP_isCoil_cycleEvents, countP_isUnit_cycleEvents, length_cycleEvents, h]
  exact ⟨by ring, by ring, by ring⟩

/-- Settles O17: the move is the run to the next COMMIT clock (`ticks_toCommit`), the counts are `moveEvents_counts`. -/
theorem moveDrivesNFullCycles : Obligations.MoveDrivesNFullCycles := by
  refine ⟨fun s hparam hp hi hc => ?_, fun n d seq hseq => moveEvents_counts n d ?_⟩
  · have ok : s.CountersOk := ⟨hparam, fun _ => hc, by simp [hp]⟩
    have writes : s.writesLeft + 1 = 8 * s.cyclesLeft.toNat := by
      simp only [State.writesLeft, hi]
      simp
      omega
    have clocks : s.clocksToCommit = 8 * s.cyclesLeft.toNat * coilPeriod s.clksPerUs s.snapDelay := by
      rw [clocksToCommit_of_emit_eq_mul hp, writes, State.period]
    rw [← clocks]
    refine fun hr => ?_
    have commit := ticks_clocksToCommit_phase hr ok
    obtain ⟨-, events, goal⟩ := ticks_toCommit hr ok le_rfl
    refine ⟨?_, commit⟩
    have position : (s.ticks s.clocksToCommit).snapPosition = s.snapPosition := by simpa [State.goal, commit, hp] using goal
    rw [eventsToCommit_of_commit commit, eventsToCommit_of_emit_eq_lastWrites hp, writes, position] at events
    rw [moveEvents_eq_lastWrites]
    exact List.append_cancel_right events
  · obtain rfl | rfl : seq = seqCw ∨ seq = seqCcw := by simpa using hseq
    · rfl
    · rfl

/-! ### An iteration (R64) -/

/-- R121. From a SNAP clock the run through the next COMMIT clock is one iteration long. -/
theorem clocksToCommit_succ_of_snap {s : State} (hp : s.phase = .snap) : s.clocksToCommit + 1 =
    iterationClocks s.clksPerUs (distance s.prevPosition s.ports.targetPosition) s.ports.delay := by
  rw [clocksToCommit_of_snap hp, iterationClocks]
  omega

/-- Settles O48: an iteration is the run from a SNAP clock through the next COMMIT clock (`ticks_throughCommit`). -/
theorem iterationCarriesTheEventLevelTrace : Obligations.IterationCarriesTheEventLevelTrace := by
  intro s hparam hp
  rw [← clocksToCommit_succ_of_snap hp]
  refine fun hr => ?_
  obtain ⟨events, phase, position⟩ := ticks_throughCommit hr (countersOk_of_snap hparam hp)
  exact ⟨events.trans (eventsToCommit_of_snap hp), phase, position.trans (if_pos hp)⟩

/-- Settles O3: the reset clock is silent and leaves a SNAP clock at position 0, where an iteration starts. -/
theorem resetAbandonsTheMove : Obligations.ResetAbandonsTheMove := by
  intro s hparam hr i k hcalm
  obtain ⟨phase, position, -⟩ := tick_registersReset_of_rst hr
  have silent := event_eq_none_of_no_strobe (no_strobe_of_rst hr)
  have ports : s.tick.ports = i := tick_ports s
  have iteration := iterationCarriesTheEventLevelTrace s.tick (by simpa [State.ParamOk] using hparam) phase
  rw [position, ports, tick_clksPerUs] at iteration
  have events := (iteration fun j hj => by rw [inputAt_tick]; exact hcalm j hj).1
  rw [Nat.add_comm, State.trace, silent]
  exact events

/-- Settles O50, by strong induction on the clocks: a run that stays within the iteration is a beginning of its events, a longer
one goes on from the next SNAP clock. -/
theorem clockLevelRefinesEventLevel : Obligations.ClockLevelRefinesEventLevel := by
  intro n
  induction n using Nat.strong_induction_on with
  | _ n ih =>
    intro s hparam hp hr
    have ok := countersOk_of_snap hparam hp
    have iteration := eventsToCommit_of_snap hp
    by_cases hn : n ≤ s.clocksToCommit
    · refine ⟨[(s.ports.targetPosition, s.ports.delay)], (s.ticks n).eventsToCommit, ?_⟩
      simpa [engineEvents] using (ticks_toCommit hr ok hn).2.1.trans iteration
    · obtain ⟨m, rfl⟩ : ∃ m, n = s.clocksToCommit + 1 + m := ⟨n - (s.clocksToCommit + 1), by omega⟩
      obtain ⟨events, phase, position⟩ := ticks_throughCommit (noReset_mono hr (by omega)) ok
      have later : (s.ticks (s.clocksToCommit + 1)).NoReset m := noReset_ticks hr le_rfl
      obtain ⟨snaps, more, rest⟩ := ih m (by omega) _ (by simpa [State.ParamOk] using hparam) phase later
      rw [position, State.goal, if_pos hp] at rest
      refine ⟨(s.ports.targetPosition, s.ports.delay) :: snaps, more, ?_⟩
      rw [trace_add, events, iteration, engineEvents, List.append_assoc, rest]

/-! ### The target reached (60_exceptions.md R104) -/

theorem countP_isCommit_lastWrites (dir : Direction) (d : Delay) (n : Nat) : (lastWrites dir d n).countP isCommit = 0 := by
  induction n with
  | zero => rfl
  | succ n ih => simp [lastWrites, ih, countP_holdEvents, isCommit]

/-- The run through the next COMMIT clock commits once. -/
theorem countP_isCommit_eventsToCommit (s : State) : s.eventsToCommit.countP isCommit = 1 := by
  cases hp : s.phase <;>
    simp [State.eventsToCommit, State.eventsAfterHold, hp, iterationEvents, motionEvents_eq_lastWrites,
      countP_isCommit_lastWrites, countP_holdEvents, isCommit]

theorem coilPeriod_le (c : Nat) (d : Delay) : coilPeriod c d ≤ 2 + 65535 * unitClks c :=
  Nat.add_le_add_left (Nat.mul_le_mul_right _ (Nat.le_of_lt_succ d.isLt)) 2

theorem writesLeft_lt {s : State} (h : 1 ≤ s.cyclesLeft.toNat) : s.writesLeft + 1 ≤ 8 * 65535 := by
  have := s.cyclesLeft.isLt
  unfold State.writesLeft
  omega

theorem distance_le (p0 p : Position) : distance p0 p ≤ 65535 := by
  have := position_toInt_bounds p0
  have := position_toInt_bounds p
  unfold distance
  omega

/-- R121. The next COMMIT clock is never further off than the longest iteration is long. -/
theorem clocksToCommit_lt_longestIteration {s : State} (h : s.CountersOk)
    (hd : s.phase = .hold → s.unitsLeft.toNat ≤ s.snapDelay.toNat) :
    s.clocksToCommit < longestIteration s.clksPerUs := by
  have longest (m : Nat) (d : Delay) (hm : m ≤ 8 * 65535) :
      m * coilPeriod s.clksPerUs d ≤ 8 * 65535 * (2 + 65535 * unitClks s.clksPerUs) :=
    Nat.mul_le_mul hm (coilPeriod_le _ d)
  have write (hm : s.Moving) := longest (s.writesLeft + 1) s.snapDelay (writesLeft_lt (h.cycles hm))
  have split : (s.writesLeft + 1) * coilPeriod s.clksPerUs s.snapDelay =
      1 + s.snapDelay.toNat * unitClks s.clksPerUs + s.clocksAfterHold := by
    rw [Nat.succ_mul, coilPeriod, State.clocksAfterHold, State.period, coilPeriod]
    omega
  rw [longestIteration]
  cases hp : s.phase with
  | snap =>
    have := longest (8 * distance s.prevPosition s.ports.targetPosition) s.ports.delay
      (Nat.mul_le_mul_left _ (distance_le _ _))
    rw [clocksToCommit_of_snap hp]
    omega
  | dispatch =>
    have := longest (8 * distance s.prevPosition s.snapPosition) s.snapDelay (Nat.mul_le_mul_left _ (distance_le _ _))
    rw [clocksToCommit_of_dispatch hp, State.period]
    omega
  | emit =>
    have := write (.inl hp)
    rw [clocksToCommit_of_emit hp]
    omega
  | hold =>
    have := write (.inr (.inl hp))
    have := Nat.mul_le_mul_right (unitClks s.clksPerUs) (hd hp)
    rw [clocksToCommit_of_hold hp]
    omega
  | next =>
    have := write (.inr (.inr hp))
    rw [clocksToCommit_of_next hp]
    omega
  | commit =>
    rw [clocksToCommit_of_commit hp]
    omega

/-- Settles O47: the run through the next COMMIT clock ends in a SNAP clock, and the iteration from there commits the target. -/
theorem heldTargetIsReached : Obligations.HeldTargetIsReached := by
  intro s p hinv b hr ht
  have ok := countersOk_of_inv hinv
  obtain ⟨-, -, -, hold, -, -⟩ := hinv
  have firstLength := clocksToCommit_lt_longestIteration ok fun hp => (hold hp).2.1
  generalize hm : s.clocksToCommit + 1 = m at firstLength
  obtain ⟨firstEvents, snap, -⟩ := ticks_throughCommit (noReset_mono hr (by omega)) ok
  rw [hm] at firstEvents snap
  have ok' : (s.ticks m).CountersOk := countersOk_of_snap (by simpa [State.ParamOk] using ok.param) snap
  have secondLength := clocksToCommit_lt_longestIteration ok' (by simp [snap])
  rw [ticks_clksPerUs] at secondLength
  obtain ⟨secondEvents, phase, position⟩ := ticks_throughCommit (noReset_ticks hr (by omega)) ok'
  generalize hk : (s.ticks m).clocksToCommit + 1 = k at *
  have target (j : Nat) (hj : j < b + 1) : (s.ticks j).ports.targetPosition = p := by
    rw [← ht j hj]
    exact congrArg Ports.targetPosition (inputAt_ticks j 0 s)
  rw [State.goal, if_pos snap, target m (by omega), ← ticks_add] at position
  rw [← ticks_add] at phase
  refine ⟨m + k, by omega, ⟨phase, ?_⟩, position, ?_⟩
  · rw [target _ (by omega), position]
  · rw [trace_add, firstEvents, secondEvents, List.countP_append, countP_isCommit_eventsToCommit,
      countP_isCommit_eventsToCommit]

end Sys2Proof.Machine

/-! The clocks within a coil period (42_delay_timer.md section 3, 70_reset_and_hazards.md R122): the hold, its units, and where
the events of an iteration fall. -/

namespace Sys2Proof.Machine

/-! ### What a hold leaves alone (R84) -/

/-- The registers a hold does not write: all but the phase and the timer. -/
def State.SameButTimer (s t : State) : Prop :=
  t.coilOut = s.coilOut ∧ t.dir = s.dir ∧ t.idx = s.idx ∧ t.cyclesLeft = s.cyclesLeft ∧ t.snapDelay = s.snapDelay ∧
  t.snapPosition = s.snapPosition ∧ t.prevPosition = s.prevPosition

theorem tick_sameButTimer {s : State} (hr : s.ports.rst = false) (hp : s.phase = .hold) : s.SameButTimer s.tick := by
  rw [tick_hold hr hp]
  split <;> simp [State.SameButTimer]

theorem ticks_sameButTimer {n : Nat} {s : State} (hr : s.NoReset n) (hp : ∀ j < n, (s.ticks j).phase = .hold) :
    s.SameButTimer (s.ticks n) := by
  induction n with
  | zero => simp [State.SameButTimer, State.ticks]
  | succ n ih =>
    have last := tick_sameButTimer (noReset_last hr) (hp n n.lt_succ_self)
    have before := ih (noReset_mono hr n.le_succ) fun j hj => hp j (by omega)
    rw [ticks_succ']
    simp_all only [State.SameButTimer, and_self]

/-! ### The units of a hold (R84) -/

/-- A HOLD clock ends a unit exactly when it leaves whole units to hold. -/
theorem unitStb_iff_of_holdRemaining {s : State} {n : Nat} (hr : s.ports.rst = false) (h : s.HoldRemaining (n + 1)) :
    s.unitStb = true ↔ unitClks s.clksPerUs ∣ n := by
  obtain ⟨hp, within, left⟩ := h
  have whole : unitClks s.clksPerUs ∣ n + (s.subCnt + 1) := Dvd.intro_left s.unitsLeft.toNat (by omega)
  rw [unitStb_iff_of_hold hr hp]
  constructor
  · intro ends
    rw [show s.subCnt + 1 = unitClks s.clksPerUs by omega] at whole
    exact (Nat.dvd_add_left (dvd_refl _)).1 whole
  · intro dvd
    have := Nat.le_of_dvd s.subCnt.succ_pos ((Nat.dvd_add_right dvd).1 whole)
    omega

/-- The last clock of a hold leaves the timer at 0. -/
theorem tick_timer_of_holdRemaining_one {s : State} (hr : s.ports.rst = false) (h : s.HoldRemaining 1) :
    s.tick.unitsLeft = 0#16 ∧ s.tick.subCnt = 0 := by
  obtain ⟨ends, last⟩ := last_of_holdRemaining_one h
  rw [tick_of_unit_end hr h.1 ends]
  simp [last]

/-- Settles O25: the clocks that remain are `ticks_holdRemaining`, their strobes `unitStb_iff_of_holdRemaining`, the registers
a hold leaves alone `ticks_sameButTimer`. -/
theorem holdLastsDelayTimesUnit : Obligations.HoldLastsDelayTimesUnit := by
  intro s hparam hp hsub hunits u k hr
  have upos : 0 < u := Nat.zero_lt_of_lt (unitClks_pos hparam)
  have kpos : 0 < k := Nat.mul_pos hunits upos
  have entered : s.HoldRemaining k := ⟨hp, hsub ▸ upos, by rw [hsub]; rfl⟩
  obtain ⟨hold, next⟩ := ticks_phase_of_holdRemaining hr kpos entered
  have same (j : Nat) (hj : j ≤ k) : s.SameButTimer (s.ticks j) :=
    ticks_sameButTimer (noReset_mono hr hj) fun i hi => hold i (by omega)
  have remaining (j n : Nat) (hj : j + (n + 1) = k) : (s.ticks j).ports.rst = false ∧ (s.ticks j).HoldRemaining (n + 1) :=
    ⟨noReset_last (noReset_mono hr (by omega)),
      ticks_holdRemaining (noReset_mono hr (by omega)) (by rwa [Nat.add_comm, hj])⟩
  refine ⟨fun j hj => ⟨hold j hj, ?_, (same j (by omega)).1⟩, next, ?_⟩
  · obtain ⟨n, hn⟩ : ∃ n, j + (n + 1) = k := ⟨k - j - 1, by omega⟩
    obtain ⟨now, left⟩ := remaining j n hn
    have whole : u ∣ (j + 1) + n := Dvd.intro_left s.unitsLeft.toNat (by omega)
    rw [unitStb_iff_of_holdRemaining now left, ticks_clksPerUs, ← Nat.dvd_iff_mod_eq_zero]
    exact ⟨fun h => (Nat.dvd_add_left h).1 whole, fun h => (Nat.dvd_add_right h).1 whole⟩
  · obtain ⟨last, hlast⟩ : ∃ last, k = last + 1 := ⟨k - 1, by omega⟩
    obtain ⟨now, one⟩ := remaining last 0 hlast.symm
    obtain ⟨units, sub⟩ := tick_timer_of_holdRemaining_one now one
    rw [← ticks_succ', ← hlast] at units sub
    exact ⟨units, sub, same k le_rfl⟩

/-! ### The coil period (R122) -/

section
variable {s : State}

/-- From a coil write to the NEXT clock at the end of its period: the units of the hold, and what stays. -/
theorem ticks_coilPeriod_next (hparam : s.ParamOk) (hp : s.phase = .emit) (hr : s.NoReset (s.period - 1)) :
    (∀ v, 1 ≤ v → v ≤ s.snapDelay.toNat → (s.ticks (v * unitClks s.clksPerUs)).unitStb = true) ∧
    (s.ticks (s.period - 1)).phase = .next ∧ (s.ticks (s.period - 1)).writesLeft = s.writesLeft ∧
    (s.ticks (s.period - 1)).snapDelay = s.snapDelay := by
  have length : s.period - 1 = s.snapDelay.toNat * unitClks s.clksPerUs + 1 := by
    rw [State.period, coilPeriod]
    omega
  rw [length] at hr ⊢
  have now := noReset_now hr
  have writes := tick_writesLeft now (by simp [hp]) (by simp [hp])
  have delay := tick_snapDelay_of_ne_snap now (by simp [hp])
  by_cases hd : s.snapDelay = 0#16
  · simp [hd, State.ticks, tick_phase_of_emit now hp, writes, delay]
    omega
  · obtain ⟨units, sub⟩ := tick_timer_of_emit now hp
    have pos : 1 ≤ s.snapDelay.toNat := Nat.pos_of_ne_zero (mt (eq_zero_iff _).2 hd)
    have hold := holdLastsDelayTimesUnit s.tick (by simpa [State.ParamOk] using hparam)
      (by simp [tick_phase_of_emit now hp, hd]) sub (units ▸ pos)
    rw [units, tick_clksPerUs] at hold
    obtain ⟨clocks, phase, -, -, -, -, idx, cycles, delay', -⟩ := hold (noReset_tick hr)
    refine ⟨fun v hv hvd => ?_, phase, ?_, delay'.trans delay⟩
    · have u := unitClks_pos hparam
      have first : unitClks s.clksPerUs ≤ v * unitClks s.clksPerUs := Nat.le_mul_of_pos_left _ hv
      have within := Nat.mul_le_mul_right (unitClks s.clksPerUs) hvd
      obtain ⟨j, hj⟩ : ∃ j, v * unitClks s.clksPerUs = j + 1 := ⟨v * unitClks s.clksPerUs - 1, by omega⟩
      rw [hj]
      exact (clocks j (by omega)).2.1.2 (by rw [← hj, Nat.mul_mod_left])
    · rw [← writes, State.writesLeft, State.ticks, cycles, idx, State.writesLeft]

end

/-- The clock performs the coil write that has n writes of the move, of delay d, after it. -/
def State.AtWrite (s : State) (d : Delay) (n : Nat) : Prop := s.phase = .emit ∧ s.writesLeft = n ∧ s.snapDelay = d

/-- The next coil write follows a coil period later. -/
theorem ticks_coilPeriod_atWrite {s : State} {d : Delay} {n : Nat} (ok : s.CountersOk) (h : s.AtWrite d (n + 1))
    (hr : s.NoReset s.period) : (s.ticks s.period).AtWrite d n := by
  obtain ⟨hp, writes, rfl⟩ := h
  obtain ⟨last, hlast⟩ : ∃ last, s.period = last + 1 := ⟨s.period - 1, by rw [State.period, coilPeriod]; omega⟩
  obtain ⟨-, next, writes', delay⟩ := ticks_coilPeriod_next ok.param hp (noReset_mono hr (Nat.sub_le _ 1))
  have ok' := ticks_countersOk (noReset_mono hr (Nat.sub_le _ 1)) ok
  rw [hlast, Nat.add_sub_cancel] at next writes' delay ok'
  rw [hlast] at hr ⊢
  have now : (s.ticks last).ports.rst = false := noReset_last hr
  rw [ticks_succ']
  obtain ⟨spent, -⟩ | ⟨phase, fewer, -⟩ := tick_next_cases now next (ok'.cycles (.inr (.inr next)))
  · omega
  · exact ⟨phase, by omega, (tick_snapDelay_of_ne_snap now (by simp [next])).trans delay⟩

/-- Coil write j of a move falls j coil periods after the first. -/
theorem ticks_atWrite {s : State} {d : Delay} {n j q : Nat} (ok : s.CountersOk) (hq : coilPeriod s.clksPerUs d = q)
    (h : s.AtWrite d (n + j)) (hr : s.NoReset (j * q)) : (s.ticks (j * q)).AtWrite d n := by
  induction j generalizing n with
  | zero => simpa [State.ticks] using h
  | succ j ih =>
    rw [Nat.succ_mul] at hr ⊢
    have before := ih (n := n + 1) (by rwa [Nat.add_assoc, Nat.add_comm 1]) (noReset_mono hr (Nat.le_add_right _ _))
    have period : (s.ticks (j * q)).period = q := by
      obtain ⟨-, -, delay⟩ := before
      rw [State.period, ticks_clksPerUs, delay, hq]
    have now := ticks_coilPeriod_atWrite (ticks_countersOk (noReset_mono hr (Nat.le_add_right _ _)) ok) before
      (by rw [period]; exact noReset_ticks hr le_rfl)
    rwa [period, ← ticks_add] at now

/-- The counter of a coil write, from the writes of the move after it. -/
theorem counter_of_writesLeft {s : State} {n j : Nat} (hc : 1 ≤ s.cyclesLeft.toNat) (h : s.writesLeft + j + 1 = 8 * n) :
    s.idx.toNat = j % 8 ∧ s.cyclesLeft.toNat = n - j / 8 := by
  have := s.idx.isLt
  unfold State.writesLeft at h
  omega

/-- R122. From SNAP, the first coil write of a move falls two clocks later, with the whole move to come. -/
theorem ticks_two_atWrite {s : State} (hp : s.phase = .snap) (hr : s.NoReset 2) {n : Nat}
    (hn : 8 * distance s.prevPosition s.ports.targetPosition = n + 1) : (s.ticks 2).AtWrite s.ports.delay n := by
  have now := noReset_now hr
  have next := noReset_now (noReset_tick hr)
  have phase := tick_phase_of_snap now hp
  have position := tick_prevPosition_of_ne_commit now (by simp [hp])
  have target := tick_snapPosition_of_snap now hp
  have ne : s.tick.snapPosition.toInt ≠ s.tick.prevPosition.toInt := by
    rw [position, target]
    unfold distance at hn
    omega
  have writes := startMove_writesLeft ne
  rw [position, target] at writes
  refine ⟨?_, ?_, ?_⟩
  · exact (tick_phase_of_dispatch next phase).trans (if_neg ne)
  · rw [State.ticks, State.ticks, State.ticks, tick_of_dispatch_ne next phase ne]
    exact Nat.succ_injective (writes.trans hn)
  · exact (tick_snapDelay_of_ne_snap next (by simp [phase])).trans (tick_snapDelay_of_snap now hp)

/-- R122. Coil write j of an iteration of n cycles falls in clock 2 + j * q, and `8 * n - 1 - j` writes come after it. -/
theorem ticks_iteration_atWrite {s : State} (ok : s.CountersOk) (hp : s.phase = .snap) {n q j : Nat}
    (hn : distance s.prevPosition s.ports.targetPosition = n) (hq : coilPeriod s.clksPerUs s.ports.delay = q)
    (hj : j < 8 * n) (hr : s.NoReset (2 + j * q)) : (s.ticks (2 + j * q)).AtWrite s.ports.delay (8 * n - 1 - j) := by
  have two := noReset_mono hr (Nat.le_add_right 2 _)
  have first := ticks_two_atWrite hp two (n := 8 * n - 1 - j + j) (by omega)
  rw [ticks_add]
  exact ticks_atWrite (ticks_countersOk two ok) (by rw [ticks_clksPerUs, hq]) first (noReset_ticks hr le_rfl)

/-- Settles O49: the coil writes are `ticks_iteration_atWrite`, the units and the NEXT clock of each `ticks_coilPeriod_next`, the
end of the iteration is the run through COMMIT. -/
theorem eventsFallAtTheirClocks : Obligations.EventsFallAtTheirClocks := by
  intro s hparam hp n d u q hr
  have ok := countersOk_of_snap hparam hp
  have length : s.clocksToCommit = 2 + 8 * n * q := clocksToCommit_of_snap hp
  rw [← clocksToCommit_succ_of_snap hp] at hr
  obtain ⟨-, snap, position⟩ := ticks_throughCommit hr ok
  have commit := ticks_clocksToCommit_phase (noReset_mono hr (Nat.le_succ _)) ok
  have clock (k : Nat) (hk : k ≤ s.clocksToCommit) : (s.ticks k).ports.rst = false :=
    noReset_last (noReset_mono hr (Nat.succ_le_succ hk))
  have next : s.clocksToCommit + 1 = 3 + 8 * n * q := by omega
  refine ⟨tick_phase_of_snap (noReset_now hr) hp, fun j hj => ?_,
    commitStb_iff.2 (length ▸ ⟨clock _ le_rfl, commit⟩), next ▸ snap, next ▸ position.trans (if_pos hp)⟩
  have within : (j + 1) * q ≤ 8 * n * q := Nat.mul_le_mul_right q hj
  rw [Nat.succ_mul] at within
  have qpos : 2 ≤ q := Nat.le_add_right 2 _
  have start := noReset_mono hr (m := 2 + j * q) (by omega)
  obtain ⟨emit, writes, delay⟩ := ticks_iteration_atWrite (n := n) (q := q) ok hp rfl rfl hj start
  have ok' := ticks_countersOk start ok
  obtain ⟨idx, cycles⟩ := counter_of_writesLeft (n := n) (j := j) (ok'.cycles (.inl emit)) (by omega)
  have period : (s.ticks (2 + j * q)).period = q := by rw [State.period, ticks_clksPerUs, delay]
  have rest := ticks_coilPeriod_next ok'.param emit
    (show (s.ticks (2 + j * q)).NoReset _ by rw [period]; exact noReset_ticks hr (by omega))
  rw [period, delay, ticks_clksPerUs, ← ticks_add] at rest
  obtain ⟨units, last, -, -⟩ := rest
  exact ⟨coilStb_iff.2 ⟨clock _ (by omega), emit⟩, idx, cycles, fun v hv hvd => ticks_add _ _ s ▸ units v hv hvd, last⟩

end Sys2Proof.Machine

/-! The invariants of 10_state.md section 9 (R29) and the counters they keep from wrapping. -/

namespace Sys2Proof.Machine

/-! ### What the invariants ask of each kind of phase -/

section
variable {s : State}

theorem inv_of_idle (param : s.ParamOk) (coil : s.CoilInv) (hp : s.Idle)
    (counters : s.cyclesLeft = 0#16 ∧ s.idx = 0#3 ∧ s.unitsLeft = 0#16 ∧ s.subCnt = 0) : s.Inv := by
  have still : ¬ s.Moving ∧ s.phase ≠ .hold ∧ ¬ (s.phase = .emit ∨ s.phase = .next) := by
    obtain hp | hp | hp := hp <;> simp [State.Moving, hp]
  obtain ⟨noMove, noHold, noTimer⟩ := still
  exact ⟨param, fun _ => counters, fun h => absurd h noMove, fun h => absurd h noHold, fun h => absurd h noTimer, coil⟩

/-- R29 item 3. What a move asks of the registers it does not count in: the positions and `dir`. -/
def State.MoveAimed (s : State) : Prop :=
  s.snapPosition.toInt ≠ s.prevPosition.toInt ∧ s.dir = (if s.prevPosition.toInt < s.snapPosition.toInt then 0#1 else 1#1)

theorem inv_of_emit_or_next (param : s.ParamOk) (coil : s.CoilInv) (hp : s.phase = .emit ∨ s.phase = .next)
    (cycles : 1 ≤ s.cyclesLeft.toNat) (aimed : s.MoveAimed) (timer : s.unitsLeft = 0#16 ∧ s.subCnt = 0) : s.Inv := by
  have moving : ¬ s.Idle ∧ s.phase ≠ .hold := by obtain hp | hp := hp <;> simp [State.Idle, hp]
  obtain ⟨notIdle, notHold⟩ := moving
  exact ⟨param, fun h => absurd h notIdle, fun _ => ⟨cycles, aimed⟩, fun h => absurd h notHold, fun _ => timer, coil⟩

theorem inv_of_hold (param : s.ParamOk) (coil : s.CoilInv) (hp : s.phase = .hold) (cycles : 1 ≤ s.cyclesLeft.toNat)
    (aimed : s.MoveAimed)
    (hold : 1 ≤ s.unitsLeft.toNat ∧ s.unitsLeft.toNat ≤ s.snapDelay.toNat ∧ s.subCnt ≤ unitClks s.clksPerUs - 1) :
    s.Inv :=
  ⟨param, by simp [State.Idle, hp], fun _ => ⟨cycles, aimed⟩, fun _ => hold, by simp [hp], coil⟩

/-! ### Every operation keeps them -/

/-- R29 item 6. The sequence ROM holds the patterns the coil output can show. -/
theorem romRead_mem : ∀ a : RomAddress,
    romRead a ∈ [0x00#8, 0x01#8, 0x03#8, 0x02#8, 0x06#8, 0x04#8, 0x0C#8, 0x08#8, 0x09#8] := by
  decide

theorem tick_coilInv (hr : s.ports.rst = false) (h : s.CoilInv) : s.tick.CoilInv := by
  rw [State.CoilInv, tick_coilOut_of_not_rst hr]
  split
  · exact romRead_mem _
  · exact h

/-- While a move goes on nothing it is aimed at changes. -/
theorem tick_moveAimed (hr : s.ports.rst = false) (hp : s.Moving) (h : s.MoveAimed) : s.tick.MoveAimed := by
  obtain ⟨hc, hs, hd⟩ : s.phase ≠ .commit ∧ s.phase ≠ .snap ∧ s.phase ≠ .dispatch := by
    obtain hp | hp | hp := hp <;> simp [hp]
  rw [State.MoveAimed, tick_snapPosition_of_ne_snap hr hs, tick_prevPosition_of_ne_commit hr hc, tick_dir_of_ne_dispatch hr hd]
  exact h

theorem startMove_moveAimed (h : s.snapPosition.toInt ≠ s.prevPosition.toInt) : s.startMove.MoveAimed := by
  refine ⟨h, (startMove_dir_eq s).trans ?_⟩
  have sign : s.snapPosition.toInt - s.prevPosition.toInt < 0 ↔ ¬ s.prevPosition.toInt < s.snapPosition.toInt := by omega
  rw [if_congr sign rfl rfl, ite_not]
  rfl

theorem tick_inv_of_rst (param : s.ParamOk) (hr : s.ports.rst = true) : s.tick.Inv := by
  rw [tick_reset hr]
  exact inv_of_idle param (by simp [State.CoilInv]) (.inl rfl) ⟨rfl, rfl, rfl, rfl⟩

theorem tick_inv_of_idle (hr : s.ports.rst = false) (h : s.Inv) (hp : s.Idle) : s.tick.Inv := by
  obtain ⟨param, idle, -, -, -, coil⟩ := h
  have counters := idle hp
  have param' : s.tick.ParamOk := by simpa [State.ParamOk] using param
  have coil' := tick_coilInv hr coil
  obtain hp | hp | hp := hp
  · exact inv_of_idle param' coil' (.inr (.inl (tick_phase_of_snap hr hp))) (by simpa [tick_snap hr hp] using counters)
  · by_cases hd : s.snapPosition.toInt = s.prevPosition.toInt
    · exact inv_of_idle param' coil' (.inr (.inr (by simp [tick_phase_of_dispatch hr hp, hd])))
        (by simpa [tick_of_dispatch_eq hr hp hd] using counters)
    · have cycles := (distance_pos_of_ne hd).trans_eq (startMove_cyclesLeft_eq_distance s).symm
      rw [tick_of_dispatch_ne hr hp hd] at coil' ⊢
      obtain ⟨-, -, timer⟩ := counters
      exact inv_of_emit_or_next param coil' (.inl rfl) cycles (startMove_moveAimed hd) timer
  · exact inv_of_idle param' coil' (.inl (tick_phase_of_commit hr hp)) (by simpa [tick_commit hr hp] using counters)

theorem tick_inv_of_emit (hr : s.ports.rst = false) (h : s.Inv) (hp : s.phase = .emit) : s.tick.Inv := by
  obtain ⟨param, cycles, -⟩ := tick_countersOk hr (countersOk_of_inv h)
  obtain ⟨-, -, move, -, -, coil⟩ := h
  have coil := tick_coilInv hr coil
  have aimed := tick_moveAimed hr (.inl hp) (move (.inl hp)).2
  obtain ⟨units, sub⟩ := tick_timer_of_emit hr hp
  by_cases hd : s.snapDelay = 0#16
  · have phase : s.tick.phase = .next := by simp [tick_phase_of_emit hr hp, hd]
    exact inv_of_emit_or_next param coil (.inr phase) (cycles (.inr (.inr phase))) aimed ⟨units.trans hd, sub⟩
  · have phase : s.tick.phase = .hold := by simp [tick_phase_of_emit hr hp, hd]
    have pos : 1 ≤ s.snapDelay.toNat := Nat.pos_of_ne_zero (mt (eq_zero_iff _).2 hd)
    refine inv_of_hold param coil phase (cycles (.inr (.inl phase))) aimed ?_
    rw [units, sub, tick_snapDelay_of_ne_snap hr (by simp [hp])]
    exact ⟨pos, le_rfl, Nat.zero_le _⟩

theorem tick_inv_of_hold (hr : s.ports.rst = false) (h : s.Inv) (hp : s.phase = .hold) : s.tick.Inv := by
  have ok := countersOk_of_inv h
  obtain ⟨param, cycles, -⟩ := tick_countersOk hr ok
  obtain ⟨-, -, move, hold, -, coil⟩ := h
  obtain ⟨left, atMost, -⟩ := hold hp
  have coil := tick_coilInv hr coil
  have aimed := tick_moveAimed hr (.inr (.inl hp)) (move (.inr (.inl hp))).2
  have delay := tick_snapDelay_of_ne_snap hr (by simp [hp])
  obtain ⟨-, phase, units, sub, within⟩ | ⟨-, -, units, sub, phase⟩ := tick_hold_cases hr hp ok
  · refine inv_of_hold param coil phase (cycles (.inr (.inl phase))) aimed ?_
    rw [units, sub, delay, tick_clksPerUs]
    omega
  · by_cases spent : s.tick.unitsLeft.toNat = 0
    · have phase : s.tick.phase = .next := by simp [phase, spent]
      exact inv_of_emit_or_next param coil (.inr phase) (cycles (.inr (.inr phase))) aimed ⟨(eq_zero_iff _).2 spent, sub⟩
    · have phase : s.tick.phase = .hold := by simp [phase, spent]
      refine inv_of_hold param coil phase (cycles (.inr (.inl phase))) aimed ?_
      rw [sub, delay]
      omega

theorem tick_inv_of_next (hr : s.ports.rst = false) (h : s.Inv) (hp : s.phase = .next) : s.tick.Inv := by
  obtain ⟨param, cycles, -⟩ := tick_countersOk hr (countersOk_of_inv h)
  obtain ⟨-, -, move, -, timer, coil⟩ := h
  have coil := tick_coilInv hr coil
  have aimed := tick_moveAimed hr (.inr (.inr hp)) (move (.inr (.inr hp))).2
  have timer : s.tick.unitsLeft = 0#16 ∧ s.tick.subCnt = 0 := by
    obtain ⟨units, sub⟩ := tick_timer_of_ne hr (by simp [hp]) (by simp [hp])
    rw [units, sub]
    exact timer (.inr hp)
  by_cases hl : s.idx = 7#3 ∧ s.cyclesLeft = 1#16
  · have phase : s.tick.phase = .commit := by simp [tick_phase_of_next hr hp, hl]
    have counter : s.tick.cyclesLeft = 0#16 ∧ s.tick.idx = 0#3 := by simp [tick_next hr hp, State.lastEntry, hl]
    exact inv_of_idle param coil (.inr (.inr phase)) ⟨counter.1, counter.2, timer⟩
  · have phase : s.tick.phase = .emit := by rw [tick_phase_of_next hr hp, if_neg hl]
    exact inv_of_emit_or_next param coil (.inl phase) (cycles (.inl phase)) aimed timer

end

theorem idle_or_moving (s : State) : s.Idle ∨ s.Moving := by
  cases hp : s.phase <;> simp [State.Idle, State.Moving, hp]

theorem tick_inv_of_moving {s : State} (hr : s.ports.rst = false) (h : s.Inv) : s.Moving → s.tick.Inv
  | .inl hp => tick_inv_of_emit hr h hp
  | .inr (.inl hp) => tick_inv_of_hold hr h hp
  | .inr (.inr hp) => tick_inv_of_next hr h hp

/-- Settles O40: a reset clock by `tick_inv_of_rst`, the others by whether a move is in progress. -/
theorem everyStepKeepsTheInvariants : Obligations.EveryStepKeepsTheInvariants := by
  intro s t h step
  obtain rfl := tick_of_step step
  cases hr : s.ports.rst with
  | true => exact tick_inv_of_rst (countersOk_of_inv h).param hr
  | false => exact (idle_or_moving s).elim (tick_inv_of_idle hr h) (tick_inv_of_moving hr h)

/-- Settles O39: the reset state is idle with every counter at 0. -/
theorem invariantsHoldAtReset : Obligations.InvariantsHoldAtReset :=
  inv_of_idle (Nat.le_add_left 1 _) (by simp [State.CoilInv, State.reset]) (.inl rfl) ⟨rfl, rfl, rfl, rfl⟩

/-! ### No counter wraps (40_snapshot_delta.md section 6) -/

/-- Settles O42: each counter is decremented where the invariants keep it at least 1, and incremented below its end. -/
theorem countersNeverWrap : Obligations.CountersNeverWrap := by
  intro s t h hr step
  obtain rfl := tick_of_step step
  have ok := countersOk_of_inv h
  refine ⟨fun hp hi => ?_, fun hp hi => ?_, fun hp hu => ?_, fun hp hu => ?_, fun hp hne => ?_⟩
  · have cycles := ok.cycles (.inr (.inr hp))
    have fewer := toNat_sub_one cycles
    simp only [tick_next hr hp, State.lastEntry, hi, BEq.rfl, if_true, State.nextInputs_cyclesLeft, State.nextCycle_cyclesLeft]
    omega
  · rw [tick_next hr hp, if_neg (by simpa [State.lastEntry] using hi)]
    exact nextEntry_idx_toNat hi
  · obtain ⟨-, -, -, -, within⟩ | ⟨-, -, units, -⟩ := tick_hold_cases hr hp ok
    · omega
    · exact units
  · obtain ⟨-, -, -, sub, -⟩ | ⟨-, last, -⟩ := tick_hold_cases hr hp ok
    · exact sub
    · omega
  · rw [tick_of_dispatch_ne hr hp (mt BitVec.toInt_inj.1 hne), State.delta, deltaOf, ← Int.natCast_natAbs]
    exact congrArg Nat.cast (startMove_cyclesLeft_toNat s)

end Sys2Proof.Machine

/-! The coil lines (30_encoding.md section 2, 41_sequencer.md section 4): the two tables, and the history of the coil output. -/

namespace Sys2Proof.Machine

/-! ### The two tables (R59) -/

theorem romRead_mirrored : ∀ i : EntryIndex, romRead (romAddress 1#1 i) = romRead (romAddress 0#1 (7#3 - i)) := by
  decide

theorem linesChanged_zero_clockwise : ∀ i : EntryIndex,
    linesChanged 0x00#8 (romRead (romAddress 0#1 i)) = (if i.toNat % 2 = 0 then 1 else 2) := by
  decide

theorem linesChanged_neighbours : ∀ (d : Direction) (i : EntryIndex),
    linesChanged (romRead (romAddress d i)) (romRead (romAddress d (i + 1#3))) = 1 := by
  decide

/-- The last entry of a sequence is the first of the other. -/
theorem romRead_last : ∀ d : Direction, romRead (romAddress d 7#3) = romRead (romAddress (d + 1#1) 0#3) := by
  decide

theorem romRead_ne_zero : ∀ a : RomAddress, romRead a ≠ 0x00#8 := by
  decide

/-- Settles O11: the five properties, each over the sixteen entries. -/
theorem tablesAreMirroredAndStepOneLine : Obligations.TablesAreMirroredAndStepOneLine := fun d i =>
  ⟨romRead_mirrored i, linesChanged_zero_clockwise i, linesChanged_neighbours d i, romRead_last d, romRead_ne_zero _⟩

/-! ### The history of the coil output (R75) -/

/-- What a move leaves on the coil output is one of the patterns at rest. -/
theorem atRest_romRead_last : ∀ d : Direction, AtRest (romRead (romAddress d 7#3)) := by
  decide

/-- Between moves: a phase that is idle asks only what the last move left. -/
theorem coilHistory_of_idle {s : State} (hp : s.Idle) (h : s.coilOut = 0x00#8 ∨ s.coilOut = romRead (romAddress s.dir 7#3)) :
    s.CoilHistory := by
  have still : ¬ (s.phase = .hold ∨ s.phase = .next) ∧ s.phase ≠ .emit := by obtain hp | hp | hp := hp <;> simp [hp]
  obtain ⟨notHeld, notEmit⟩ := still
  exact ⟨fun h => absurd h notHeld, fun h => absurd h notEmit, fun h => absurd h.1 notEmit, fun _ => h⟩

theorem coilHistory_of_held {s : State} (hp : s.phase = .hold ∨ s.phase = .next) (h : s.coilOut = s.currentEntry) :
    s.CoilHistory := by
  have held : s.phase ≠ .emit ∧ ¬ s.Idle := by obtain hp | hp := hp <;> simp [State.Idle, hp]
  obtain ⟨notEmit, notIdle⟩ := held
  exact ⟨fun _ => h, fun h => absurd h notEmit, fun h => absurd h.1 notEmit, fun h => absurd h notIdle⟩

theorem coilHistory_of_emit {s : State} (hp : s.phase = .emit)
    (later : ¬ s.FirstWrite → s.coilOut = romRead (romAddress s.dir (s.idx - 1#3)))
    (first : s.FirstWrite → AtRest s.coilOut) : s.CoilHistory :=
  ⟨by simp [hp], fun _ => later, first, by simp [State.Idle, hp]⟩

theorem tick_coilHistory_of_idle {s : State} (hr : s.ports.rst = false) (h : s.CoilHistory) (hp : s.Idle) :
    s.tick.CoilHistory := by
  obtain ⟨-, -, -, idle⟩ := h
  have rest := idle hp
  obtain hp | hp | hp := hp
  · exact coilHistory_of_idle (.inr (.inl (tick_phase_of_snap hr hp))) (by simpa [tick_snap hr hp] using rest)
  · by_cases hd : s.snapPosition.toInt = s.prevPosition.toInt
    · exact coilHistory_of_idle (.inr (.inr (by simp [tick_phase_of_dispatch hr hp, hd])))
        (by simpa [tick_of_dispatch_eq hr hp hd] using rest)
    · rw [tick_of_dispatch_ne hr hp hd]
      refine coilHistory_of_emit rfl (fun later => absurd ⟨rfl, rfl, rfl⟩ later) fun _ => ?_
      obtain reset | last := rest
      · exact .inl reset
      · exact (congrArg AtRest last).mpr (atRest_romRead_last s.dir)
  · exact coilHistory_of_idle (.inl (tick_phase_of_commit hr hp)) (by simpa [tick_commit hr hp] using rest)

/-- NEXT leaves the entry just held; the coil output is then one entry behind, or what the move leaves. -/
theorem tick_coilHistory_of_next {s : State} (hr : s.ports.rst = false) (hp : s.phase = .next)
    (shown : s.coilOut = s.currentEntry) : s.tick.CoilHistory := by
  by_cases he : s.idx = 7#3
  · rw [State.currentEntry, he] at shown
    rw [tick_next hr hp, if_pos (by simp [State.lastEntry, he])]
    by_cases hl : s.cyclesLeft = 1#16
    · exact coilHistory_of_idle (.inr (.inr (by simp [State.lastCycle, hl]))) (.inr shown)
    · exact coilHistory_of_emit (by simp [State.lastCycle, hl]) (fun _ => shown)
        fun _ => (congrArg AtRest shown).mpr (atRest_romRead_last s.dir)
  · have behind : s.coilOut = romRead (romAddress s.dir (s.idx + 1#3 - 1#3)) := by simpa [State.currentEntry] using shown
    have notFirst : s.idx + 1#3 ≠ 0#3 := by bv_omega
    rw [tick_next hr hp, if_neg (by simpa [State.lastEntry] using he)]
    exact coilHistory_of_emit rfl (fun _ => behind) fun ⟨_, first, _⟩ => absurd first notFirst

theorem tick_coilHistory_of_moving {s : State} (hr : s.ports.rst = false) (h : s.CoilHistory) (hp : s.Moving) :
    s.tick.CoilHistory := by
  obtain ⟨held, -, -, -⟩ := h
  obtain hp | hp | hp := hp
  · refine coilHistory_of_held ?_ (by simp [tick_emit hr hp, State.currentEntry])
    rw [tick_phase_of_emit hr hp]
    split <;> simp
  · obtain ⟨coil, dir, idx, -⟩ := tick_sameButTimer hr hp
    refine coilHistory_of_held ?_ (coil.trans ((held (.inl hp)).trans (currentEntry_congr dir idx).symm))
    rw [tick_phase_of_hold hr hp]
    split <;> simp
  · exact tick_coilHistory_of_next hr hp (held (.inr hp))

/-- Settles O20: a reset clock clears the coil output, the others go by whether a move is in progress. -/
theorem everyStepKeepsTheCoilHistory : Obligations.EveryStepKeepsTheCoilHistory := by
  intro s t h step
  obtain rfl := tick_of_step step
  cases hr : s.ports.rst with
  | true => exact coilHistory_of_idle (.inl (tick_phase_of_rst hr)) (.inl (by simp [tick_reset hr]))
  | false => exact (idle_or_moving s).elim (tick_coilHistory_of_idle hr h) (tick_coilHistory_of_moving hr h)

/-- Settles O19: the reset state is idle with a clear coil output. -/
theorem coilHistoryHoldsAtReset : Obligations.CoilHistoryHoldsAtReset := coilHistory_of_idle (.inl rfl) (.inl rfl)

/-! ### The lines a coil write changes (R76) -/

theorem linesChanged_zero_first : ∀ d : Direction,
    linesChanged 0x00#8 (romRead (romAddress d 0#3)) = (if d = 0#1 then 1 else 2) := by
  decide

/-- Settles O21: EMIT writes the current entry, a neighbour of what the coil output shows unless the direction turned. -/
theorem coilWriteChangesFewLines : Obligations.CoilWriteChangesFewLines := by
  intro s t h hr hp step
  obtain rfl := tick_of_step step
  obtain ⟨-, later, -, -⟩ := h
  have written : s.tick.coilOut = romRead (romAddress s.dir s.idx) := tick_coilOut_of_coilStb (coilStb_iff.2 ⟨hr, hp⟩)
  rw [written]
  refine ⟨fun hf => ?_, fun hf coil => ?_, fun hf coil => ?_, fun hf coil => ?_⟩
  · rw [later hp hf]
    simpa using linesChanged_neighbours s.dir (s.idx - 1#3)
  · rw [coil, hf.2.1, linesChanged_zero_first]
  · rw [coil, hf.2.1]
    exact linesChanged_neighbours s.dir 7#3
  · have turned : s.dir + 1#1 + 1#1 = s.dir := by bv_omega
    rw [coil, romRead_last, turned, hf.2.1]

/-- Settles O18: no clock but EMIT writes the coil output (`tick_coilOut_of_ne_emit`), by induction on the clocks. -/
theorem coilOutIsRetainedOutsideEmit : Obligations.CoilOutIsRetainedOutsideEmit := by
  intro n
  induction n with
  | zero => exact fun s _ _ => rfl
  | succ n ih =>
    intro s hr hp
    have first := tick_coilOut_of_ne_emit (noReset_now hr) (hp 0 n.succ_pos)
    exact (ih s.tick (noReset_tick hr) fun j hj => hp (j + 1) (Nat.succ_lt_succ hj)).trans first

end Sys2Proof.Machine

/-! The engine at rest (40_snapshot_delta.md section 6, 60_exceptions.md R104 item 2, 70_reset_and_hazards.md R123): iterations
that move nothing, and the first one that does. -/

namespace Sys2Proof.Machine

/-! ### Iterations with a zero delta (R65) -/

/-- The phase j clocks into iterations that move nothing. -/
def restingPhase (j : Nat) : Phase := if j % 3 = 0 then .snap else if j % 3 = 1 then .dispatch else .commit

theorem restingPhase_eq_snap_iff {j : Nat} : restingPhase j = .snap ↔ j % 3 = 0 := by
  unfold restingPhase
  split_ifs <;> simp_all

/-- The engine is j clocks into iterations that move nothing: a snapshot taken is the position it stands at. -/
def State.Resting (s : State) (j : Nat) : Prop :=
  s.phase = restingPhase j ∧ (s.phase ≠ .snap → s.snapPosition = s.prevPosition)

/-- The coil output, the direction and the position are as they were. -/
def State.SameOutputs (s t : State) : Prop := t.coilOut = s.coilOut ∧ t.dir = s.dir ∧ t.prevPosition = s.prevPosition

/-- A clock at rest leads on, as long as a SNAP clock samples the position reached. -/
theorem tick_resting {s : State} {j : Nat} (hr : s.ports.rst = false) (h : s.Resting j)
    (ht : s.phase = .snap → s.ports.targetPosition = s.prevPosition) : s.tick.Resting (j + 1) ∧ s.SameOutputs s.tick := by
  obtain ⟨hp, hsnap⟩ := h
  have turn : j % 3 = 0 ∧ (j + 1) % 3 = 1 ∨ j % 3 = 1 ∧ (j + 1) % 3 = 2 ∨ j % 3 = 2 ∧ (j + 1) % 3 = 0 := by omega
  obtain ⟨now, next⟩ | ⟨now, next⟩ | ⟨now, next⟩ := turn
  · have hp : s.phase = .snap := by simpa [restingPhase, now] using hp
    simp [State.Resting, State.SameOutputs, restingPhase, next, tick_snap hr hp, ht hp]
  · have hp : s.phase = .dispatch := by simpa [restingPhase, now] using hp
    have position := hsnap (by simp [hp])
    rw [tick_of_dispatch_eq hr hp (by rw [position])]
    simp [State.Resting, State.SameOutputs, restingPhase, next, position]
  · have hp : s.phase = .commit := by simpa [restingPhase, now] using hp
    have position := hsnap (by simp [hp])
    simp [State.Resting, State.SameOutputs, restingPhase, next, tick_commit hr hp, position]

/-- At rest there is no coil write and no delay unit, and SNAP falls in every third clock. -/
theorem strobes_of_resting {s : State} {j : Nat} (hr : s.ports.rst = false) (h : s.Resting j) :
    s.coilStb = false ∧ s.unitStb = false ∧ (s.snapStb = true ↔ j % 3 = 0) := by
  obtain ⟨hp, -⟩ := h
  unfold restingPhase at hp
  split_ifs at hp <;> simp_all [State.coilStb, State.unitStb, State.snapStb]

/-- The ports a clock of a run shows are those of the input stream. -/
theorem ticks_ports (n : Nat) (s : State) : (s.ticks n).ports = s.inputAt n := inputAt_ticks n 0 s

theorem ticks_resting {n : Nat} {s : State} (hr : s.NoReset n) (h : s.Resting 0)
    (ht : ∀ j < n, j % 3 = 0 → (s.inputAt j).targetPosition = s.prevPosition) :
    (s.ticks n).Resting n ∧ s.SameOutputs (s.ticks n) := by
  induction n with
  | zero => exact ⟨h, rfl, rfl, rfl⟩
  | succ n ih =>
    obtain ⟨resting, coil, dir, position⟩ := ih (noReset_mono hr n.le_succ) fun j hj => ht j (by omega)
    have target : (s.ticks n).phase = .snap → (s.ticks n).ports.targetPosition = (s.ticks n).prevPosition := by
      rw [resting.1, restingPhase_eq_snap_iff, ticks_ports, position]
      exact ht n n.lt_succ_self
    obtain ⟨resting', coil', dir', position'⟩ := tick_resting (noReset_last hr) resting target
    rw [ticks_succ']
    exact ⟨resting', coil'.trans coil, dir'.trans dir, position'.trans position⟩

/-- Settles O46: the engine rests from clock to clock (`ticks_resting`). -/
theorem settledEngineStaysSettled : Obligations.SettledEngineStaysSettled := by
  intro n s hs hr ht
  obtain ⟨phase, -⟩ := hs
  have start : s.Resting 0 := ⟨phase, fun h => absurd phase h⟩
  have rest (k : Nat) (hk : k ≤ n) : (s.ticks k).Resting k ∧ s.SameOutputs (s.ticks k) :=
    ticks_resting (noReset_mono hr hk) start fun j hj _ => ht j (by omega)
  obtain ⟨-, coil, -, position⟩ := rest n le_rfl
  exact ⟨coil, position, fun j hj => strobes_of_resting (noReset_last (noReset_mono hr hj)) (rest j hj.le).1⟩

/-- Settles O9: the three clocks rest (`ticks_resting`); the events are those of an iteration without a motion. -/
theorem zeroDeltaIterationMovesNothing : Obligations.ZeroDeltaIterationMovesNothing := by
  intro s hp hr ht
  have start : s.Resting 0 := ⟨hp, fun h => absurd hp h⟩
  have rest (k : Nat) (hk : k ≤ 3) : (s.ticks k).Resting k ∧ s.SameOutputs (s.ticks k) := by
    refine ticks_resting (noReset_mono hr hk) start fun j hj h => ?_
    obtain rfl : j = 0 := by omega
    exact ht
  obtain ⟨⟨snap, -⟩, -, -, position⟩ := rest 3 le_rfl
  refine ⟨snap, position, ?_, fun j hj => ?_⟩
  · obtain ⟨⟨dispatch, -⟩, -⟩ := rest 1 (by omega)
    obtain ⟨⟨commit, taken⟩, -, -, kept⟩ := rest 2 (by omega)
    have first := event_of_snapStb (snapStb_iff.2 ⟨noReset_now hr, hp⟩)
    have second : (s.ticks 1).event = none := event_eq_none_of_no_strobe (no_strobe_of_dispatch dispatch)
    have third := event_of_commitStb (commitStb_iff.2 ⟨noReset_last hr, commit⟩)
    rw [ht] at first
    rw [taken (by rw [commit]; decide), kept] at third
    calc s.trace 3
      _ = s.event.toList ++ ((s.ticks 1).event.toList ++ ((s.ticks 2).event.toList ++ [])) := rfl
      _ = [.snap s.prevPosition s.ports.delay, .commit s.prevPosition] := by rw [first, second, third]; rfl
  · obtain ⟨resting, coil, dir, -⟩ := rest j hj
    refine ⟨coil, dir, fun hj => ?_⟩
    obtain ⟨noCoil, noUnit, -⟩ := strobes_of_resting (noReset_last (noReset_mono hr hj)) resting
    exact ⟨noCoil, noUnit⟩

/-! ### The first iteration that moves (R123) -/

/-- From a SNAP clock with a target other than the position: the snapshot, the first coil write 2 clocks later, its entry on the
coil output one clock after that. -/
theorem ticks_firstWrite {s : State} (hp : s.phase = .snap) (hr : s.NoReset 3)
    (hne : s.ports.targetPosition ≠ s.prevPosition) :
    s.snapStb = true ∧ (s.ticks 1).snapPosition = s.ports.targetPosition ∧ (s.ticks 2).coilStb = true ∧
    (s.ticks 3).coilOut = romRead (romAddress (s.ticks 2).dir 0#3) := by
  have cycles := distance_pos_of_ne (mt BitVec.toInt_inj.1 hne)
  have two := noReset_mono hr (Nat.le_succ 2)
  obtain ⟨n, hn⟩ : ∃ n, 8 * distance s.prevPosition s.ports.targetPosition = n + 1 :=
    Nat.exists_eq_succ_of_ne_zero (by omega)
  obtain ⟨emit, writes, -⟩ := ticks_two_atWrite hp two hn
  have idx : (s.ticks 2).idx = 0#3 := by
    refine BitVec.eq_of_toNat_eq ((idx_eq_of_writesLeft _).trans ?_)
    simp
    omega
  have strobe : (s.ticks 2).coilStb = true := coilStb_iff.2 ⟨noReset_last hr, emit⟩
  refine ⟨snapStb_iff.2 ⟨noReset_now hr, hp⟩, tick_snapPosition_of_snap (noReset_now hr) hp, strobe, ?_⟩
  rw [← idx]
  exact tick_coilOut_of_coilStb strobe

/-- The clocks an idle engine takes to its next SNAP clock, when it has nothing to move. -/
def State.clocksToSnap (s : State) : Nat := if s.phase = .dispatch then 2 else if s.phase = .commit then 1 else 0

/-- An idle engine with nothing to move goes on to a SNAP clock without a snapshot or a coil write before it, and without a
change of the position but the one its COMMIT makes. -/
theorem ticks_clocksToSnap {s : State} (hi : s.Idle) (hr : s.NoReset 2)
    (hd : s.phase = .dispatch → s.snapPosition = s.prevPosition) :
    (s.ticks s.clocksToSnap).phase = .snap ∧
    (s.ticks s.clocksToSnap).prevPosition = (if s.phase = .commit then s.snapPosition else s.prevPosition) ∧
    ∀ j < s.clocksToSnap, (s.ticks j).snapStb = false ∧ (s.ticks j).coilStb = false := by
  have now := noReset_now hr
  obtain hp | hp | hp := hi
  · simp [hp, State.clocksToSnap, State.ticks]
  · have two : s.clocksToSnap = 2 := by simp [State.clocksToSnap, hp]
    have skip : s.tick = (s.setPhase .commit).nextInputs := tick_of_dispatch_eq now hp (by rw [hd hp])
    have phase : s.tick.phase = .commit := by rw [skip]; rfl
    have next : s.tick.ports.rst = false := noReset_last hr
    rw [two, if_neg (by simp [hp]), ← hd hp]
    refine ⟨tick_phase_of_commit next phase, ?_, fun j hj => ?_⟩
    · exact (tick_prevPosition_of_commit next phase).trans (tick_snapPosition_of_ne_snap now (by simp [hp]))
    · obtain rfl | rfl : j = 0 ∨ j = 1 := by omega
      · simp [State.ticks, State.snapStb, State.coilStb, hp]
      · simp [State.ticks, State.snapStb, State.coilStb, phase]
  · have one : s.clocksToSnap = 1 := by simp [State.clocksToSnap, hp]
    rw [one, if_pos hp]
    refine ⟨tick_phase_of_commit now hp, tick_prevPosition_of_commit now hp, fun j hj => ?_⟩
    obtain rfl : j = 0 := by omega
    simp [State.ticks, State.snapStb, State.coilStb, hp]

/-- Settles O45: the way to the SNAP clock is `ticks_clocksToSnap`, the first coil write from there `ticks_firstWrite`. -/
theorem commandLatencyIsAtMostTwoClocks : Obligations.CommandLatencyIsAtMostTwoClocks := by
  intro s p hi hd hcommit hother hr ht
  have atMost : s.clocksToSnap ≤ 2 := by unfold State.clocksToSnap; split_ifs <;> omega
  obtain ⟨snap, position, before⟩ := ticks_clocksToSnap hi (noReset_mono hr (by omega)) hd
  have target : (s.ticks s.clocksToSnap).ports.targetPosition = p := by
    rw [ticks_ports]
    exact ht _ (by omega)
  have ne : (s.ticks s.clocksToSnap).ports.targetPosition ≠ (s.ticks s.clocksToSnap).prevPosition := by
    rw [target, position]
    split
    · next hp => exact (hcommit hp).symm
    · next hp => exact (hother hp).symm
  obtain ⟨sampled, taken, write, shown⟩ := ticks_firstWrite snap (noReset_ticks hr (by omega)) ne
  simp only [← ticks_add, target] at taken write shown
  exact ⟨_, atMost, sampled, taken, write, shown, before⟩

end Sys2Proof.Machine

/-! Noninterference and control (20_memory.md section 4, 70_reset_and_hazards.md section 4, 10_state.md R27): a clock that is no
SNAP clock reads neither port; the input stream, the reset state, the strobes. -/

namespace Sys2Proof.Machine

/-- Settles O43: only SNAP's registers need the same ports (`tick_sameRegisters`). -/
theorem portsAreReadInSnapOnly : Obligations.PortsAreReadInSnapOnly := by
  intro s s' t t' h hr hr' hp step step'
  obtain rfl := tick_of_step step
  obtain rfl := tick_of_step step'
  exact tick_sameRegisters h hr hr' fun hs => absurd hs hp

/-- Two clocks without reset and with the same registers carry the same event, unless it is the one that shows the ports. -/
theorem event_eq_of_sameRegisters {s s' : State} (h : s.SameRegisters s') (hr : s.ports.rst = false) (hr' : s'.ports.rst = false)
    (hp : s.phase ≠ .snap) : s.event = s'.event := by
  obtain ⟨phase, -, snap, -, dir, -, idx, -, sub, -, param⟩ := h
  have entry := currentEntry_congr dir idx
  simp [State.event, State.snapStb, State.coilStb, State.unitStb, State.commitStb, State.unitEnds, *]

/-- Settles O44: the registers by `ticks_sameRegisters`, the events clock by clock. -/
theorem moveIgnoresThePorts : Obligations.MoveIgnoresThePorts := by
  refine fun n s s' h hr hr' hp => ⟨ticks_sameRegisters h hr hr' fun j hj hs => absurd hs (hp j hj), ?_⟩
  induction n generalizing s s' with
  | zero => rfl
  | succ n ih =>
    have first := hp 0 n.succ_pos
    have registers := tick_sameRegisters h (noReset_now hr) (noReset_now hr') fun hs => absurd hs first
    rw [State.trace, State.trace, event_eq_of_sameRegisters h (noReset_now hr) (noReset_now hr') first,
      ih _ _ registers (noReset_tick hr) (noReset_tick hr') fun j hj => hp (j + 1) (Nat.succ_lt_succ hj)]

/-- Settles O31: `inputAt_ticks`. -/
theorem runsReadTheInputStreamInOrder : Obligations.RunsReadTheInputStreamInOrder := inputAt_ticks

/-- Settles O2: the registers are read off State.reset, whose first clock is a SNAP clock without reset. -/
theorem resetStateStartsWithASnapClock : Obligations.ResetStateStartsWithASnapClock :=
  ⟨⟨rfl, rfl, rfl, rfl, rfl, rfl, rfl, rfl, rfl, rfl⟩, Nat.le_add_left 1 _, decode_code_of_phase rfl rfl,
    State.reset.tick, step_eq_tick _, tick_phase_of_snap rfl rfl⟩

/-- Settles O34: a strobe gives its clock an event, and each phase has at most one strobe. -/
theorem atMostOneStrobe : Obligations.AtMostOneStrobe := by
  refine fun s => ⟨⟨fun silent => ?_, event_eq_none_of_no_strobe⟩, ?_⟩
  · have no {strobe : Bool} {e : Event} (shows : strobe = true → s.event = some e) : strobe = false :=
      Bool.eq_false_iff.2 fun h => by simp [shows h] at silent
    exact ⟨no event_of_snapStb, no event_of_coilStb, no event_of_unitStb, no event_of_commitStb⟩
  · have only {strobe : Bool} {p : Phase} (h : strobe = true → s.phase = p) :
        strobe.toNat ≤ if s.phase = p then 1 else 0 := by
      cases strobe with
      | false => exact Nat.zero_le _
      | true => simp [h rfl]
    have snap := only fun h => (snapStb_iff.1 h).2
    have coil := only fun h => (coilStb_iff.1 h).2
    have unit := only fun h => (unitStb_iff.1 h).2.1
    have commit := only fun h => (commitStb_iff.1 h).2
    cases hp : s.phase <;> simp only [hp, reduceCtorEq, if_true, if_false] at snap coil unit commit <;> omega

end Sys2Proof.Machine

/-! Encoding (30_encoding.md): operand assembly, the ROM address, the decoder, and codes placed on their carriers. -/

namespace Sys2Proof.Machine

/-! ### Operand assembly (R49, R53) -/

/-- The top bit of 17 is the sign. -/
theorem extractLsb'_sign (x : BitVec 17) : x.extractLsb' 16 1 = (if x.toInt < 0 then 1#1 else 0#1) := by
  have bit : x.extractLsb' 16 1 = BitVec.ofBool x.msb := by
    ext i hi
    obtain rfl : i = 0 := by omega
    simp [BitVec.msb, BitVec.getMsbD]
  rw [bit, BitVec.msb_eq_toInt]
  by_cases h : x.toInt < 0 <;> simp [h]

theorem romAddress_idx : ∀ (d : Direction) (i : EntryIndex), (romAddress d i).extractLsb' 0 3 = i := by
  decide

theorem romAddress_dir : ∀ (d : Direction) (i : EntryIndex), (romAddress d i).extractLsb' 3 1 = d := by
  decide

/-- Settles O7: the difference is `delta17_toInt`, its sign `extractLsb'_sign`. -/
theorem operandsAreAssembledFromBits : Obligations.OperandsAreAssembledFromBits := by
  refine fun s => ⟨delta17_toInt _ _, ?_, ⟨_, exec_emit s, rfl⟩, romAddress_idx _ _⟩
  obtain ⟨t, ht⟩ := exists_exec_next .dispatch s
  refine ⟨t, ht, fun hne => ?_⟩
  obtain rfl : s.startMove = t := Host.Outcome.next.inj ((exec_dispatch_of_ne hne).symm.trans ht)
  rw [extractLsb'_sign, delta17_toInt]
  exact ⟨rfl, startMove_cyclesLeft_toNat s⟩

/-- Settles O12: `romAddress_toNat`, its two fields, and `exec_emit`. -/
theorem romAddressIsDirAboveIdx : Obligations.RomAddressIsDirAboveIdx := fun s =>
  ⟨romAddress_toNat _ _, romAddress_dir _ _, romAddress_idx _ _, _, exec_emit s, rfl⟩

/-! ### The ROM rows (log 5) -/

/-- An instruction that is the coil write of the ROM entry at a has all of R71, and is EMIT where `{dir, idx}` is a. -/
theorem exec_of_coilWrite {s : State} {i : Instr} {a : RomAddress} {v : Pattern}
    (hexec : exec i s = .next (s.coilWrite (romRead a))) (hv : romRead a = v) :
    (∃ t, exec i s = .next t ∧ t.coilOut = v ∧ t.unitsLeft = s.snapDelay ∧ t.subCnt = 0 ∧
      t.phase = (if s.snapDelay = 0x0000#16 then .next else .hold) ∧
      t.prevPosition = s.prevPosition ∧ t.snapPosition = s.snapPosition ∧ t.snapDelay = s.snapDelay ∧ t.dir = s.dir ∧
      t.cyclesLeft = s.cyclesLeft ∧ t.idx = s.idx ∧ s.SameInputs t) ∧
    (romAddress s.dir s.idx = a → exec .emit s = exec i s) :=
  ⟨⟨_, hexec, hv, by simp [delayIsZero_iff, State.SameInputs]⟩, fun h => by rw [exec_emit, hexec, State.currentEntry, h]⟩

/-- Settles O15: each row is the coil write of the ROM entry at its address (`exec_of_coilWrite`). -/
theorem romRowsWriteTheirPatterns : Obligations.RomRowsWriteTheirPatterns := by
  intro s
  simp only [List.forall_mem_cons]
  iterate 16 refine ⟨exec_of_coilWrite rfl rfl, ?_⟩
  exact nofun

/-! ### The decoder (R54, R55, R40) -/

theorem decode_encode (i : Instr) : decode (encode i) = .ok i := by
  cases i <;> rfl

/-- A code that decodes is the code of its row. -/
theorem encode_of_decode {c : Code} {i : Instr} (h : decode c = .ok i) : encode i = c := by
  obtain ⟨format, bits⟩ := c
  cases format with
  | phase =>
    simp only [decode, decodePhase] at h
    split at h <;> cases h <;> rfl
  | rst =>
    simp only [decode, decodeRst] at h
    split at h <;> cases h
    rfl
  | rom =>
    simp only [decode, decodeRom] at h
    split at h <;> cases h <;> rfl

theorem wellFormed_encode (i : Instr) : (encode i).wellFormed = true := by
  cases i <;> rfl

/-- A well-formed code is one of the finitely many that fit, and of those the named ones decode. -/
theorem exists_decode_of_wellFormed {c : Code} (h : c.wellFormed = true) : ∃ i, decode c = .ok i := by
  obtain ⟨format, bits⟩ := c
  obtain ⟨fits, named⟩ := Bool.and_eq_true_iff.1 h
  cases format with
  | phase =>
    have small : bits < 8 := of_decide_eq_true fits
    have used : bits ≠ 6 ∧ bits ≠ 7 := by simpa [Code.named] using named
    have : bits ≤ 5 := by omega
    interval_cases bits <;> exact ⟨_, rfl⟩
  | rst =>
    have small : bits < 2 := of_decide_eq_true fits
    have asked : bits ≠ 0 := by simpa [Code.named] using named
    obtain rfl : bits = 1 := by omega
    exact ⟨_, rfl⟩
  | rom =>
    have small : bits < 16 := of_decide_eq_true fits
    interval_cases bits <;> exact ⟨_, rfl⟩

/-- Settles O36: `decode_encode` and `encode_of_decode`; an encoding is well-formed, and a well-formed code decodes. -/
theorem decoderAcceptsExactlyTheTable : Obligations.DecoderAcceptsExactlyTheTable := by
  refine ⟨fun c i => ⟨encode_of_decode, fun h => h ▸ decode_encode i⟩, fun c => ⟨exists_decode_of_wellFormed, ?_⟩⟩
  rintro ⟨i, h⟩
  exact encode_of_decode h ▸ wellFormed_encode i

/-- Settles O35: each word is the encoding of its row. -/
theorem tableWordsDecodeToTheirRows : Obligations.TableWordsDecodeToTheirRows :=
  ⟨decode_encode .snap, decode_encode .hold, decode_encode .commit, decode_encode .reset, decode_encode .cw3,
    decode_encode .cw7, decode_encode .ccw0, decode_encode .ccw5⟩

theorem phase_code_bits_le (p : Phase) : p.code.bits ≤ 5 := by
  cases p <;> decide

/-- Settles O37: the decoder rejects both codes by name, and no phase shows either. -/
theorem unusedPhaseCodesAreRejected : Obligations.UnusedPhaseCodesAreRejected :=
  ⟨rfl, rfl, fun p => ⟨phase_code_format p, phase_code_bits_le p⟩⟩

/-! ### Placed codes (log 7) -/

/-- A ROM row, placed as the EMIT of its address, is what that EMIT does. -/
theorem exec_operation_selectEntry {s : State} {d : Direction} {e : EntryIndex} {i : Instr} {a : RomAddress}
    (row : exec i (s.selectEntry d e) = .next ((s.selectEntry d e).coilWrite (romRead a))) (address : romAddress d e = a) :
    exec (s.selectEntry d e).operation (s.selectEntry d e) = exec i (s.selectEntry d e) := by
  rw [row, ← address]
  rfl

/-- The operation of a clock an instruction is placed in does what the instruction does. -/
theorem exec_operation_select (i : Instr) (s : State) : exec (s.select i).operation (s.select i) = exec i (s.select i) := by
  cases i
  case snap | dispatch | emit | hold | next | commit | reset => rfl
  all_goals exact exec_operation_selectEntry rfl (by decide)

/-- Settles O38: a code that decodes selects its instruction, and the step runs the operation selected. -/
theorem placedCodeRunsNext : Obligations.PlacedCodeRunsNext := by
  intro s c i h
  have placed : s.placeCode c = s.select i := by rw [State.placeCode, h]
  obtain ⟨t, ht⟩ := exists_exec_next i (s.select i)
  rw [placed]
  exact ⟨t, ht, step_of_exec_operation ((exec_operation_select i s).trans ht)⟩

end Sys2Proof.Machine

/-! The widths of the delay timer (00_scope.md R6, 10_state.md R21) and a move without holds (42_delay_timer.md section 3). -/

namespace Sys2Proof.Machine

/-- R6. SUB_W is the smallest width that holds the clocks of a unit. -/
theorem two_pow_lt_of_lt_subWidth {u w : Nat} (hu : 2 ≤ u) (hw : w < subWidth u) : 2 ^ w < u := by
  have below : 2 ^ w ≤ 2 ^ Nat.log2 (u - 1) := Nat.pow_le_pow_right (by omega) (Nat.le_of_lt_succ hw)
  have top : 2 ^ Nat.log2 (u - 1) ≤ u - 1 := Nat.log2_self_le (by omega)
  omega

/-- Settles O23: the width is `units_le_two_pow_subWidth` and `two_pow_lt_of_lt_subWidth`, the parameter `ticks_clksPerUs`. -/
theorem timerWidthsFollowTheParameter : Obligations.TimerWidthsFollowTheParameter := by
  refine ⟨fun _ => rfl, fun c hc => ⟨units_le_two_pow_subWidth _, fun w => two_pow_lt_of_lt_subWidth ?_⟩, by decide,
    ticks_clksPerUs⟩
  have := unitClks_pos hc
  omega

/-- Settles O24: sub_cnt is cleared or counted modulo 2^SUB_W in EMIT, HOLD and at a reset, and kept otherwise. -/
theorem subCntStaysInItsWidth : Obligations.SubCntStaysInItsWidth := by
  refine ⟨fun s t h step => ?_, fun s t hr hp hu step => ?_⟩
  · obtain rfl := tick_of_step step
    rw [State.SubCntFits, tick_clksPerUs]
    cases hr : s.ports.rst with
    | true => simp [tick_reset hr]
    | false =>
      by_cases hp : s.phase = .emit
      · simp [tick_emit hr hp]
      · by_cases hh : s.phase = .hold
        · rw [tick_hold hr hh]
          split
          · simp
          · exact subCntPlusOne_lt _ _
        · rw [(tick_timer_of_ne hr hp hh).2]
          exact h
  · obtain rfl := tick_of_step step
    rw [tick_within_unit hr hp hu]
    rfl

/-- Settles O26: with delay 0 EMIT goes on to NEXT, which is silent and decides between the next write and the end. -/
theorem zeroDelayWritesEveryTwoClocks : Obligations.ZeroDelayWritesEveryTwoClocks := by
  intro s hp hd hr
  have now := noReset_now hr
  have next : s.tick.ports.rst = false := noReset_last hr
  have phase : s.tick.phase = .next := by simp [tick_phase_of_emit now hp, hd]
  obtain ⟨cycles, idx⟩ := tick_counter_of_ne now (by simp [hp]) (by simp [hp])
  have write := event_of_coilStb (coilStb_iff.2 ⟨now, hp⟩)
  have silent := event_eq_none_of_no_strobe (no_strobe_of_next phase)
  refine ⟨phase, ?_, ?_, ?_⟩
  · rw [State.trace, State.trace, write, silent]
    rfl
  · exact (tick_snapDelay_of_ne_snap next (by simp [phase])).trans ((tick_snapDelay_of_ne_snap now (by simp [hp])).trans hd)
  · rw [← idx, ← cycles]
    exact tick_phase_of_next next phase

end Sys2Proof.Machine

/-! The stimulus statements of 30_encoding.md R57: a testbench that holds one value on each port. -/

namespace Sys2Proof.Machine

theorem runClocks_succ' (k : Nat) (b : Bench) : Bench.runClocks (k + 1) b = (Bench.runClocks k b).clock false := by
  induction k generalizing b with
  | zero => rfl
  | succ k ih => exact ih (b.clock false)

/-- Clocks leave what the bench holds on the ports and count the clock number up. -/
theorem runClocks_held (k : Nat) (b : Bench) : (Bench.runClocks k b).target = b.target ∧
    (Bench.runClocks k b).delay = b.delay ∧ (Bench.runClocks k b).machine.clock = b.machine.clock + k := by
  induction k with
  | zero => exact ⟨rfl, rfl, rfl⟩
  | succ k ih =>
    obtain ⟨target, delay, clock⟩ := ih
    rw [runClocks_succ']
    exact ⟨target, delay, (tick_clock _).trans (congrArg Nat.succ clock)⟩

theorem toInt_ofInt_of_wellFormed {z : Int} (h : (Stmt.pos z).wellFormed = true) : (BitVec.ofInt 16 z).toInt = z := by
  obtain ⟨lower, upper⟩ := of_decide_eq_true h
  rw [BitVec.toInt_ofInt]
  exact Int.bmod_eq_of_le (by norm_num; omega) (by norm_num; omega)

theorem toNat_ofNat_of_wellFormed {n : Nat} (h : (Stmt.dly n).wellFormed = true) : (BitVec.ofNat 16 n).toNat = n :=
  (BitVec.toNat_ofNat n 16).trans (Nat.mod_eq_of_lt (Nat.lt_succ_of_le (of_decide_eq_true h)))

/-- Settles O51: each statement is read off its definition, the clocks of RUN by `runClocks_succ'` and `runClocks_held`. -/
theorem stimulusStatementsDriveThePorts : Obligations.StimulusStatementsDriveThePorts := by
  refine fun b => ⟨⟨_, step_eq_tick _, tick_registersReset_of_rst rfl, tick_clock _, rfl⟩,
    fun z hz => ⟨toInt_ofInt_of_wellFormed hz, rfl, rfl⟩, fun n hn => ⟨toNat_ofNat_of_wellFormed hn, rfl, rfl⟩, rfl,
    fun k => ?_, fun m => rfl, rfl, rfl, rfl⟩
  obtain ⟨target, delay, clock⟩ := runClocks_held k b
  refine ⟨_, step_eq_tick _, ?_, ?_, fun hp => ?_⟩
  · show Bench.runClocks (k + 1) b = _
    rw [runClocks_succ', Bench.clock, Bench.present, target, delay]
    rfl
  · exact (tick_clock _).trans (congrArg Nat.succ clock)
  · exact ⟨tick_snapPosition_of_snap rfl hp, tick_snapDelay_of_snap rfl hp⟩

/-! ### UNTIL COMMIT -/

theorem present_commitStb_iff (b : Bench) : (b.present false).commitStb = true ↔ b.machine.phase = .commit := by
  rw [commitStb_iff]
  simp [Bench.present]

/-- Outside SNAP the clocks to COMMIT do not depend on the ports. -/
theorem present_clocksToCommit {b : Bench} (hp : b.machine.phase ≠ .snap) :
    (b.present false).clocksToCommit = b.machine.clocksToCommit := by
  cases h : b.machine.phase with
  | snap => exact absurd h hp
  | dispatch => exact (clocksToCommit_of_dispatch (s := b.present false) h).trans (clocksToCommit_of_dispatch h).symm
  | emit => exact (clocksToCommit_of_emit (s := b.present false) h).trans (clocksToCommit_of_emit h).symm
  | hold => exact (clocksToCommit_of_hold (s := b.present false) h).trans (clocksToCommit_of_hold h).symm
  | next => exact (clocksToCommit_of_next (s := b.present false) h).trans (clocksToCommit_of_next h).symm
  | commit => exact (clocksToCommit_of_commit (s := b.present false) h).trans (clocksToCommit_of_commit h).symm

/-- Every clock of the bench before COMMIT takes exactly one from the clocks to come. -/
theorem clock_clocksToCommit {b : Bench} (h : (b.present false).CountersOk) (hp : b.machine.phase ≠ .commit) :
    ((b.clock false).present false).CountersOk ∧
    ((b.clock false).present false).clocksToCommit + 1 = (b.present false).clocksToCommit := by
  obtain ⟨param, cycles, hold⟩ := tick_countersOk (s := b.present false) rfl h
  have later : (b.clock false).machine.phase ≠ .snap := tick_phase_ne_snap (s := b.present false) rfl hp
  exact ⟨⟨param, cycles, hold⟩, by rw [present_clocksToCommit later]; exact tick_clocksToCommit rfl h hp⟩

/-- UNTIL COMMIT with a bound past the next COMMIT clock stops after it. -/
theorem toCommit_eq_runClocks {n k : Nat} {b : Bench} (h : (b.present false).CountersOk)
    (hk : (b.present false).clocksToCommit = k) (hn : k < n) :
    (∀ j < k, ((Bench.runClocks j b).present false).commitStb = false) ∧
    ((Bench.runClocks k b).present false).commitStb = true ∧ Bench.toCommit n b = Bench.runClocks (k + 1) b := by
  obtain ⟨n, rfl⟩ : ∃ i, n = i + 1 := ⟨n - 1, by omega⟩
  have now : b.machine.phase = .commit ↔ k = 0 := hk ▸ (clocksToCommit_eq_zero_iff (s := b.present false)).symm
  induction k generalizing n b with
  | zero =>
    have strobe := (present_commitStb_iff b).2 (now.2 rfl)
    exact ⟨nofun, strobe, if_pos strobe⟩
  | succ k ih =>
    have notYet : b.machine.phase ≠ .commit := mt now.1 (Nat.succ_ne_zero k)
    have noStrobe : (b.present false).commitStb = false := by simpa using mt (present_commitStb_iff b).1 notYet
    obtain ⟨ok, fewer⟩ := clock_clocksToCommit h notYet
    obtain ⟨m, rfl⟩ : ∃ m, n = m + 1 := ⟨n - 1, by omega⟩
    have left : ((b.clock false).present false).clocksToCommit = k := by omega
    have next := clocksToCommit_eq_zero_iff (s := (b.clock false).present false)
    obtain ⟨before, strobe, run⟩ := ih ok left m (by omega) (left ▸ next.symm)
    refine ⟨fun j hj => ?_, strobe, ?_⟩
    · cases j with
      | zero => exact noStrobe
      | succ j => exact before j (by omega)
    · rw [Bench.toCommit, if_neg (by simp [noStrobe]), run]
      rfl

/-- Settles O52: the next COMMIT clock comes within the bound (`clocksToCommit_lt_longestIteration`). -/
theorem untilCommitStopsAfterTheNextCommit : Obligations.UntilCommitStopsAfterTheNextCommit := by
  intro b h
  have presented : (b.present false).Inv := h
  have ok := countersOk_of_inv presented
  obtain ⟨-, -, -, hold, -, -⟩ := presented
  exact ⟨_, toCommit_eq_runClocks ok rfl (clocksToCommit_lt_longestIteration ok fun hp => (hold hp).2.1)⟩

end Sys2Proof.Machine
